-- ==== Sys2Proof/Word.lean ====
section
/-! DEFINITION. The words of the module's registers, records and memories. -/

namespace Sys2Proof

/-- A register, an exchange word, a queue item: 64 bits (R49, R91, R122 and the other register rules). -/
abbrev W64 := BitVec 64

/-- The smallest addressable unit of HBM, of a tile bank and of the Keep store. -/
abbrev Byte := BitVec 8

end Sys2Proof
end

