-- ==== Sys2Proof/Syntax.lean ====
section
/-! DEFINITION. The commands the module takes: one constructor of `Instr` for each row of spec/opcode_table.json, with the
row's operands. Small name types (seats, ports, masters, destinations) come first. -/

namespace Sys2Proof

/-- The four seats of Table 14.2. -/
inductive Seat
  | manager | run | debug | board
  deriving DecidableEq, Repr

/-- A way a seat is reached: host port A, host port B, the parallel slave port (R293). -/
inductive Port
  | a | b | psp
  deriving DecidableEq, Repr

/-- Who makes an access on the service network: a seat, a service core, the loader or the trail engine (Table 5.10). -/
inductive Master
  | seat (s : Seat)
  | core
  | loader
  | trail
  deriving DecidableEq, Repr

/-- A 64-bit access: a read, or a write of a value. -/
inductive Access
  | read
  | write (v : W64)
  deriving DecidableEq, Repr

/-- Where an UPDATE word of the exchange mesh ends: an inbound port (physical tile, cluster, port), or the value or the
enable of a TIO pin (R65, R88, R89). -/
inductive UpdDest
  | port (tile : Fin 528) (cluster : Fin 16) (port : Fin 64)
  | pinValue (pin : Fin 256)
  | pinEnable (pin : Fin 256)
  deriving DecidableEq, Repr

/-- Where a MARK word of the exchange mesh ends: a tile, or a TIO bank (R70, R88). -/
inductive MarkDest
  | tile (tile : Fin 528)
  | bank (b : Fin 8)
  deriving DecidableEq, Repr

/-- What the outside world does to the 256 TIO lands when the module samples them: which lands an external driver drives,
to which level, and which lands change inside the sample window of Table 18.5 (R89, R371). -/
structure PinEnv where
  driven : BitVec 256
  level  : BitVec 256
  moving : BitVec 256
  deriving DecidableEq, Repr

/-- Which clock monitor trips (R350). -/
inductive ClockTrip
  | crystal | pll
  deriving DecidableEq, Repr

/-- The wake sources of Table 17.5, in bit order. -/
inductive WakeSource
  | host | board | timer | pcie
  deriving DecidableEq, Repr

/-- How a start-up stage ends (R355, R356): it passes, or fails with a DETAIL. The firmware stage is told which slots
verify (DIGEST and SIGNATURE, and the 2 s limit of the started firmware); the lanes stage which reference groups have
their REFCLK_L. -/
inductive StageResult
  | passed (slotAOk slotBOk : Bool) (refclk : BitVec 16)
  | failed (detail : Nat)
  deriving DecidableEq, Repr

/-- What Thermos reads from one fabric regulator and die (R362, R366). -/
structure RailReading where
  voutMv : Nat
  ioutA  : Nat
  poutW  : Nat
  temp   : BitVec 16
  deriving DecidableEq, Repr

/-- What Thermos reads at a 1 ms tick: the four rails, the hub's estimate for the HBM and hub rails, the hub junction and
the hottest HBM stack (R366, Table 14.7). -/
structure ThermosReading where
  rail0 : RailReading
  rail1 : RailReading
  rail2 : RailReading
  rail3 : RailReading
  hubW  : Nat
  hubTemp : BitVec 16
  hbmTemp : BitVec 16
  deriving DecidableEq, Repr

/-- A service-network packet's header fields (Table 15.3) with its data words. -/
structure Packet where
  kind   : Nat
  vn     : Nat
  epoch  : Bool
  src    : Nat
  dst    : Nat
  tag    : Nat
  status : Nat
  lenM1  : Nat
  be     : BitVec 8
  addr   : Nat
  cls    : Nat
  data   : List W64
  deriving DecidableEq, Repr

/-- The commands. A write row carries the master that writes and, where the register has several fields, the 64-bit value
written; a mailbox row carries the seat whose accepted command Fovia executes; an event row carries what the event brings
from outside the module. Lanes 0 to 1,023 are the module lanes; 1,024 to 1,031 stand for pair lanes 0 to 7. -/
inductive Instr
  -- execution (chapters 2 to 4)
  | clusterStep (tile : Fin 528) (cluster : Fin 16)
  | barrier (env : PinEnv)
  | hamperRearmSetup
  | updateArrival (dest : UpdDest)
  | markArrival (dest : MarkDest) (key : Nat)
  | linkWordRx (lane : Fin 1024)
  | eocSend
  | eocReceive (lane : Fin 1024)
  -- design memory (chapter 5)
  | queueServe (tile : Fin 528) (ctx : Fin 512) (hbmError : Bool)
  | responseAvailable (tile : Fin 528) (ctx : Fin 512)
  | regionTableWrite (m : Master) (entry : Fin 16) (size : Bool) (v : W64)
  | snHbmAccess (m : Master) (addr : Nat) (acc : Access)
  | bankAccess (m : Master) (tile : Fin 528) (offset : Nat) (acc : Access)
  | hstreamRead (m : Master) (tile : Fin 528) (ctx : Fin 512)
  | hstreamWrite (m : Master) (tile : Fin 528) (ctx : Fin 512) (v : W64)
  | reqOwnerWrite (m : Master) (tile : Fin 528) (bank : Fin 16) (v : W64)
  | ownerHandoverDone (tile : Fin 528) (bank : Fin 16)
  -- loading (chapters 6 and 7)
  | load (seat : Seat)
  | streamLoad (seat : Seat)
  | intakeWrite (seat : Seat) (port : Port) (bytes : List Byte)
  | imageHeader
  | imageFrame
  | loadEndChecks
  | loadTimeout
  | abort (seat : Seat) (port : Port)
  | streamDataRx
  | streamTerminator
  | releaseStage (env : PinEnv)
  | mordantFrameCheck
  | mordantRewrite (die : Fin 4)
  -- run control (chapter 8)
  | runEnable (m : Master) (env : PinEnv)
  | baseCheckpoint (env : PinEnv)
  | run (seat : Seat) (env : PinEnv)
  | runCtrlStop (m : Master)
  | stop (seat : Seat)
  | runCtrlForceStop (m : Master)
  | forceStop (seat : Seat)
  | stopAtWrite (m : Master) (v : W64)
  | haltN (low : Bool) (ns : Nat)
  | stopDrainComplete (env : PinEnv)
  | internalCheckFailed
  | watchdogExpiry
  | paceCapRelease
  | paceWindow
  | setPace (seat : Seat)
  -- the trail (chapter 9)
  | checkpointComplete
  | trailPinWrite (m : Master) (v : W64)
  | rewind (seat : Seat)
  | rewindComplete (hbmError : Bool)
  -- capture (chapter 10)
  | capCtrlArm (m : Master)
  | arm (seat : Seat)
  | capCtrlDisarm (m : Master)
  | disarm (seat : Seat)
  | captureConfigWrite (m : Master) (offset : Nat) (v : W64)
  -- Basket (chapter 11)
  | basketSubmit (m : Master) (v : W64)
  | submit (seat : Seat)
  | basketDelivery (port : Fin 4096)
  | basketApplyCompletions
  | basketRingEntry
  -- lanes and links (chapter 12)
  | linkCfgWrite (m : Master) (lane : Fin 1024) (v : W64)
  | linkCtrlTrain (m : Master) (lane : Fin 1024)
  | linkTrain (seat : Seat)
  | linkCtrlDown (m : Master) (lane : Fin 1024)
  | linkDown (seat : Seat)
  | equaliserAdapted (lane : Fin 1032)
  | blockLock (lane : Fin 1032) (ppm : Int)
  | lockLoss (lane : Fin 1032)
  | trainBlock (lane : Fin 1032) (block : W64) (skew : Nat)
  | linkNoSignal (lane : Fin 1032)
  | linkTrainTimeout (lane : Fin 1032)
  | retrainTimeout (lane : Fin 1032)
  | frame (lane : Fin 1032) (header : W64) (words : List W64) (headersValid : Bool)
  | idle (lane : Fin 1032) (block : W64)
  | nakResend (lane : Fin 1032)
  | frameSend (lane : Fin 1032)
  | idleSend (lane : Fin 1032)
  | loopWrite (m : Master) (lane : Fin 1032) (v : W64)
  | patCtrlWrite (m : Master) (lane : Fin 1032) (v : W64)
  | checkerLock (lane : Fin 1032)
  | scanStart (m : Master) (lane : Fin 1032) (v : W64)
  | scanPointDone (lane : Fin 1032) (errors : Nat)
  -- systems and twins (chapter 13)
  | partnerLost (lane : Fin 1024)
  | sysCtrlPlanStop (m : Master)
  | planStop (seat : Seat)
  | sysCtrlPlanRewind (m : Master)
  | planRewind (seat : Seat)
  | sysCtrlSettle (m : Master)
  | settle (seat : Seat)
  | pairLinkTrain
  | pairCfgWrite (m : Master) (v : W64)
  | heartbeatSend
  | heartbeat (word : W64)
  | heartbeatMissed
  | mirrorSend
  | mirrorData (word : W64) (words : List W64)
  | mirrorDone (word : W64) (cycle : W64)
  | relay (seat : Seat)
  | relayCmd (word : W64) (words : List W64)
  | relayRsp (word : W64) (words : List W64)
  | pairCtrlDetach (m : Master)
  | detach (seat : Seat)
  | detachMsg (word : W64)
  | detachAck (word : W64)
  | detachTimeout
  -- host attachment (chapter 14)
  | pcieReset (port : Port)
  | flr (port : Port) (pf : Fin 3)
  | pcieLinkUp (port : Port)
  | doorbell (seat : Seat) (port : Port)
  | hello (seat : Seat)
  | goodbye (seat : Seat)
  | regRead (seat : Seat)
  | regWrite (seat : Seat) (env : PinEnv)
  | dump (seat : Seat)
  | dumpComplete
  | powerState (seat : Seat)
  | logRead (seat : Seat)
  | selftest (seat : Seat)
  | selftestComplete (failed : BitVec 4)
  | fwInfo (seat : Seat)
  | fwStage (seat : Seat)
  | fwCommit (seat : Seat)
  | fwConfirm (seat : Seat)
  | keySet (seat : Seat)
  | policySet (seat : Seat)
  | snCtrlGo (seat : Seat) (port : Port) (v : W64) (env : PinEnv)
  | bar2Access (port : Port) (offset : Nat) (size : Nat) (acc : Access) (env : PinEnv)
  | protSeatWrite (seat : Seat) (target : Fin 4) (v : W64)
  | mirrorRefresh
  -- service network and interrupts (chapter 15)
  | snRequest (p : Packet) (env : PinEnv)
  | snResponse (node : Nat) (tag : Nat)
  | deadTarget (node : Fin 2048)
  | snDeadWrite (m : Master) (word : Fin 32) (v : W64)
  | revival (node : Fin 2048)
  | domainOff (d : Fin 16)
  | domainWake (d : Fin 16)
  | snRtDataWrite (m : Master) (v : W64)
  | snEpochSwap (m : Master) (v : W64)
  | epochDrainDone
  | irqEvent (source : Fin 2048)
  | irqClaim (m : Master) (target : Fin 20)
  | irqComplete (m : Master) (target : Fin 20) (v : W64)
  | irqSet (m : Master) (word : Fin 32) (v : W64)
  | irqPendingWrite (m : Master) (word : Fin 32) (v : W64)
  | msixMessage (vector : Fin 16)
  -- trace funnel (chapter 16)
  | traceEnable (m : Master) (v : W64)
  | traceDisable (m : Master) (v : W64)
  | traceFlushDone
  | traceFlush (m : Master)
  | pageFlushTimeout
  | tracePacket (source : Byte)
  | tracePageWrite
  | traceHostRdWrite (m : Master) (v : W64)
  | corePowerDown (core : Fin 4) (addr : W64)
  | coreWake (core : Fin 4)
  -- clocks, power, thermos (chapter 17)
  | clockSourceFailure (trip : ClockTrip)
  | clockFailStopTimeout
  | ioscReady
  | xtalOk
  | useXtal (m : Master)
  | powerOnReset (straps : BitVec 6)
  | resetN (ns : Nat)
  | resetKey (m : Master)
  | bootWatchdog
  | startupStage (r : StageResult)
  | tscSet (m : Master) (v : W64)
  | pwrCtrlSleep (m : Master)
  | pwrCtrlDeep (m : Master)
  | powerEntryStart
  | powerEntryDone
  | wake (source : WakeSource)
  | wakeN (ns : Nat)
  | wakeTimer
  | powerExitDone
  | thermosTick (r : ThermosReading)
  | throttle
  | throttleStep
  | throttleClear
  | tempWarning
  | thermalTrip
  | railFault (die : Fin 4)
  | pmbAlert (faults : BitVec 4)
  | wearLedgerWrite
  | hbmcRunEnWrite (m : Master) (enable : Bool)
  -- pins (chapter 18)
  | pwrOkFall
  | tioVddioChange (bank : Fin 8) (vddio : BitVec 2)
  | pspWrite (address : Nat) (d : BitVec 16) (env : PinEnv)
  | pspRead (address : Nat)
  | spiRead (address : Nat)
  | spiWrite (address : Nat) (v : W64) (env : PinEnv)
  | spiWriteStatus
  | extest
  | idcode
  | samplePreload
  | extestPulse
  | extestTrain
  | highz
  | clamp
  | bypass
  -- register writes and the events added to the table
  /- bits 39:0 of `address` are the address; bit 40 says that the access is of 4 bytes, not 8 -/
  | registerWrite (seat : Seat) (port : Port) (address : Nat) (v : W64)
  | lanesDownReached (lane : Fin 1032)
  | pllRelock
  | refclkLAppears (group : Fin 16)
  | pciePortReady (port : Port)
  | tapReset
  deriving DecidableEq, Repr

end Sys2Proof
end

