-- ==== Sys2Proof/Config.lean ====
section
/-! DEFINITION. The values the spec leaves open, as constants without a body: nothing in Lean can evaluate them, so a
statement about one holds for every value. Each is applied to the counter `Dev.free`, which the step reads and advances,
or to the operands it depends on. -/

namespace Sys2Proof.Config

/-- An open bit: whether a HALT_N pulse of 5 ns to 20 ns is registered (R372), the level sampled on a land that is
contended (R89) or that changes inside the sample window (R371). Log entry 5. -/
opaque freeBit : Nat → Bool

/-- An open 64-bit word: the fields of the DUMP and mirror headers whose places are not given. Log entry 6. -/
opaque freeWord : Nat → BitVec 64

/-- The bit behind a reserved operand address or SEL, which a word damaged past its check may name (R54). Log entry 87. -/
opaque reservedBit : Nat → Bool

/-- A byte that the trail engine left in the TRAIL region, after so many of its writes, at an address: Table 9.1 gives no places there
(R384). Log entry 6. -/
opaque trailByte : Nat → Nat → BitVec 8

/-- The firmware key fused at manufacture (R309): a point of P-384, X and Y. Log entry 27. -/
opaque fwKey : Nat × Nat

end Sys2Proof.Config
end

