-- ==== Sys2Proof/Machine/State.lean ====
section
/-! DEFINITION. The module's state as plain data, and its value after reset. A table `Tbl α` is a list of key and value
pairs in canonical form (keys strictly rising, no entry equal to the table's default); Machine/Tbl.lean reads and writes
it. Registers with named fields hold their fields; counters are 64-bit words that wrap. Design cycles are natural numbers:
no rule wraps them. -/

namespace Sys2Proof.Machine

/-- No command of this model faults: every row of the opcode table has an effect in the spec. -/
inductive Fault
  deriving DecidableEq, Repr

/-- Why a command is refused by the model. -/
inductive Refusal
  /-- Raised by a dispatch arm that has no meaning yet; no arm of this model raises it. Safe: the run ends. -/
  | notModelled (mnemonic : String)
  deriving DecidableEq, Repr

/-- A sparse table, in canonical form. -/
abbrev Tbl (α : Type) := List (Nat × α)

/-- A byte memory: an unlisted address reads 0 (log entry 7). -/
abbrev Mem := List Host.Cell

/-- The module states of Table 0.8, with the encodings of Table 8.1. -/
inductive ModState
  | boot | idle | loading | loaded | releasing | running | stopping | stopped | rewinding | stranded | faulted
  deriving DecidableEq, Repr

/-- Region states (Table 7.1). -/
inductive RegionSt
  | active | isolated | torn | reloading
  deriving DecidableEq, Repr

/-- Lane states (Table 12.11). -/
inductive LaneSt
  | down | training | locked | up | loopback | scan
  deriving DecidableEq, Repr

/-- Bank owners (Table 5.12 encodings 0 to 3). -/
inductive Owner
  | fabric | host | service | trail
  deriving DecidableEq, Repr

/-- What the part's fuses and straps say (R1, R13, Table 0.4): grade, bin, stepping, the 16 spare tiles, MODID. -/
structure Fuse where
  zpe393 : Bool
  bin : Nat
  stepping : Nat
  spares : List Nat
  modid : BitVec 6
  deriving DecidableEq, Repr

/-! ## Fabric (chapters 2 to 5) -/

/-- A Boolean processor's rows: RES, IMP and STA values with valid and change bits, and the wrap latch (R21, R31). -/
structure Bp where
  res : BitVec 1024
  resValid : BitVec 1024
  resChg : BitVec 1024
  imp : BitVec 1024
  impValid : BitVec 1024
  impChg : BitVec 1024
  sta : BitVec 256
  staChg : BitVec 256
  wrap : Bool
  deriving DecidableEq, Repr

def Bp.reset : Bp := ⟨0, 0, 0, 0, 0, 0, 0, 0, false⟩

/-- An inbound exchange port: its value, the late value held for the next cycle, whether an ordinary token of this cycle has
reached it (R74), and its value at the last commit (R84). -/
structure InPort where
  value : Bool
  next : Option Bool
  got : Bool
  old : Bool
  deriving DecidableEq, Repr

def InPort.reset : InPort := ⟨false, none, false, false⟩

/-- A cluster: its 64 BPs, the step it is at, whether it has begun the design cycle and finished step L−1, whether the words
of its step have been fetched and whether a FIRE holds it there, the BP and DETAIL of an uncorrectable word it holds,
assembler, response window, pin sample, counters, inbound ports, response order list, and the assembler as of the last
barrier (R24, R32 to R34, R48, R49, R104, R107, Table 9.1 ASM). -/
structure Cluster where
  bps : Tbl Bp
  step : Nat
  begun : Bool
  done : Bool
  fetched : Bool
  fireHeld : Bool
  ecc : Option (Nat × Nat)
  asm : BitVec 128
  asmOld : BitVec 128
  window : W64
  pins : BitVec 16
  evals : W64
  quiets : W64
  ports : Tbl InPort
  order : List Nat
  deriving DecidableEq, Repr

def Cluster.reset : Cluster := ⟨[], 0, false, false, false, false, none, 0, 0, 0, 0, 0, 0, [], []⟩

/-- An entry of a queue context: a request, its bounds-check result, whether it has been served and its response has become
available, the response, and whether a posted item still holds the entry (R103, R110). -/
structure QEnt where
  op : Nat
  addr : Nat
  data : W64
  be : Nat
  cycle : Nat
  failed : Bool
  served : Bool
  avail : Bool
  item : Bool
  resp : W64
  deriving DecidableEq, Repr

/-- A queue context's run-time contents: entries oldest first; stored items of the take kinds, with the FLOW of each item in a
BASKET_IN context (Table 9.1); the open packet; stream
flags; the last item a host read removed; items posted or taken now and as of the last commit (R97, R112, R113, R117). -/
structure Ctx where
  ents : List QEnt
  items : List W64
  flows : List Nat
  openPkt : Option (List W64)
  overrun : Bool
  underrun : Bool
  last : BitVec 32
  count : Nat
  countOld : Nat
  deriving DecidableEq, Repr

def Ctx.reset : Ctx := ⟨[], [], [], none, false, false, 0, 0, 0⟩

/-- A tile bank's ownership (R118 to R121). -/
structure Bank where
  owner : Owner
  req : Owner
  draining : Bool
  refused : Bool
  deriving DecidableEq, Repr

def Bank.reset : Bank := ⟨.service, .service, false, false⟩

/-- A stored frame: its place, its golden signature, and the committed cycle at which Mordant last passed it (R135, R164). -/
structure FrameRec where
  kind : Nat
  cluster : Nat
  offset : Nat
  len : Nat
  pcrc : Nat
  clean : Nat
  deriving DecidableEq, Repr

/-- A physical tile. `moving` marks a tile of a virtual region that has not yet left its old place (R128); `stores` holds each
store of Table 6.7 as 16-byte lines, keyed by kind and cluster; `taps` the value of each tap at the end of the last committed
design cycle (R212). -/
structure Tile where
  placed : Bool
  moving : Bool
  vtile : Nat
  ldiv : Nat
  eccFatal : Bool
  fullPasses : W64
  eccCorrected : W64
  tokensOut : W64
  tokensIn : W64
  marksOut : W64
  late : W64
  contention : W64
  borderDropped : W64
  fireFull : W64
  memBounds : W64
  conflict : Tbl W64
  stores : Tbl (Tbl (BitVec 128))
  frames : List FrameRec
  clusters : Tbl Cluster
  ctxs : Tbl Ctx
  banks : Tbl Bank
  mem : Mem
  horizon : Tbl Nat
  routes : Tbl W64
  markRoutes : Tbl W64
  taps : BitVec 256
  loaded : Bool
  deriving DecidableEq, Repr

def Tile.reset : Tile :=
  ⟨false, false, 0, 0, false, 0, 0, 0, 0, 0, 0, 0, 0, 0, 0, [], [], [], [], [], [], [], [], [], [], 0, false⟩

/-- A word in flight on the exchange mesh. -/
inductive Flit
  | upd (dest : UpdDest) (key : Nat) (word : W64)
  | mark (dest : MarkDest) (key : Nat) (word : W64)
  deriving DecidableEq, Repr

/-- The target I/O: pending values and enables of the design cycle, output and enable registers, which pins have resolved
their value and their enable, which drivers release has enabled, whether a clock failure or detach holds the pins at
high-Z, bus-keeper levels, the sample in use, bank settings as they act and as written, sensed supplies, banks whose supply has
come and whose pins wait for the next order 5 (R87 to R89, R370, R371). -/
structure Tio where
  val : BitVec 256
  en : BitVec 256
  out : BitVec 256
  outEn : BitVec 256
  resV : BitVec 256
  resE : BitVec 256
  enabled : BitVec 256
  highZ : Bool
  keeper : BitVec 256
  sample : BitVec 256
  drive : Tbl (BitVec 3)
  driveNew : List (Nat × BitVec 3)
  vddio : Tbl (BitVec 2)
  wait : BitVec 8
  deriving DecidableEq, Repr

def Tio.reset : Tio := ⟨0, 0, 0, 0, 0, 0, 0, false, 0, 0, [], [], [], 0⟩

/-- Module-wide exchange state: words in flight, fault registers, barrier counters (Tables 4.8 to 4.11), the ingress shadow by
lane × 65,536 + link channel number (R84; 1 holds a 0, 2 a 1), and the refresh tokens that held borders owe (R84): `refresh` to
ports, `refreshLink` over links, whose values are those that `sentOld` holds for the last commit. -/
structure Exch where
  mesh : List Flit
  lateBit : Bool
  contBit : Bool
  place : W64
  cycle : Nat
  barrierWait : W64
  lastLink : Nat
  shadow : Tbl Nat
  refresh : List (Nat × Nat × Nat × Bool)
  sent : Tbl Nat
  sentOld : Tbl Nat
  refreshLink : List (Nat × Nat × Bool)
  deriving DecidableEq, Repr

def Exch.reset : Exch := ⟨[], false, false, 0, 0, 0, 0, [], [], [], [], []⟩

/-- Design-memory registers of run control and the HBM contents (Tables 5.13 and 5.14). `stale` holds the ranges [lo, hi) of a former TRAIL
region that the trail engine's bytes still fill, with the number of its last write there (R384, log entry 6). -/
structure MemRegs where
  hbm : Mem
  stale : List (Nat × Nat × Nat)
  regionBase : Tbl W64
  regionSize : Tbl W64
  regionRefused : Bool
  bounds : Bool
  place : W64
  addr : Nat
  cycle : Nat
  hbmRefused : W64
  hostWrites : W64
  deriving DecidableEq, Repr

def MemRegs.reset : MemRegs := ⟨[], [], [], [], false, false, 0, 0, 0, 0, 0⟩

/-! ## Loading, regions, Mordant (chapters 6 and 7) -/

/-- A physical region (Table 7.10). `repair` marks a region a repair reload left waiting for its REWIND (R198); `moveFrom` is
the region that its virtual region leaves when it rejoins (R128). -/
structure Region where
  st : RegionSt
  vregion : Nat
  tornReason : Nat
  placed : Bool
  rejoin : Bool
  isolatePend : Bool
  tornPend : Bool
  held : Nat
  repair : Bool
  moveFrom : Option Nat
  buildId : W64
  since : Nat
  deriving DecidableEq, Repr

def Region.reset : Region := ⟨.isolated, 0xFF, 0, false, false, false, false, 0, false, none, 0, 0⟩

/-- An image header's fields (Table 6.4), of the loaded image or of the one being loaded. -/
structure Header where
  format : Nat
  signed : Bool
  isPartial : Bool
  tuned : Nat
  vtiles : Nat
  l : Nat
  target : Nat
  dieGroup : Nat
  regionMask : Nat
  frames : Nat
  buildId : W64
  keySlot : Nat
  bytes : List Byte
  deriving DecidableEq, Repr

def Header.reset : Header := ⟨4, false, false, 2, 1, 16, 0xFF, 8, 0, 0, 0, 0, []⟩

/-- Where a load stands: nothing, waiting for a header, waiting for named regions to become RELOADING, taking frames, at its
end checks. -/
inductive LoadPhase
  | none | header | waiting | frames | checks
  deriving DecidableEq, Repr

/-- The loader (Table 7.9) and the stream. `plan` places each virtual region on a physical one; `intake` holds image bytes
not yet consumed, of `arrived` in all; `manifest` the bytes of R132; `covered` the 16-byte lines written, by virtual tile × 256
plus store key; `arrival` the INSTR frames in arrival order; `staged` the new contents of each physical tile, which its tile
takes when the load completes. `strBuf` holds stream bytes not yet told apart, `strSkip` the bytes left of the image that
passes, `strOut` bytes on their way to lanes 8–15; `strCut` says that its kept image was refused before its last byte, and `ahead` holds
what has come for a command that Fovia has yet to begin. `frameSeq` counts the frames of the load in progress; `routing` says that the loader
has begun its route entries, after which an ABORT comes too late (R153). -/
structure Loader where
  phase : LoadPhase
  hdr : Header
  map : Option (List Nat)
  plan : List (Nat × Nat)
  intake : List Byte
  arrived : Nat
  manifest : List Byte
  covered : Tbl (Tbl Bool)
  arrival : List (Nat × FrameRec)
  aborting : Bool
  path : Nat
  isStream : Bool
  seat : Seat
  reason : Nat
  statusPartial : Bool
  statusSigned : Bool
  abortLate : Bool
  phaseShown : Nat
  refused : Bool
  done : Bool
  detail : W64
  expected : Nat
  framesDone : Nat
  frameSeq : Nat
  routing : Bool
  buildId : W64
  timeoutMs : Nat
  gap : Nat
  stage : Nat
  forward : Bool
  accept : Bool
  strResult : Nat
  strImages : Nat
  strTerm : Bool
  strKept : Bool
  strActive : Bool
  strLanes : Bool
  strBytes : W64
  strBuf : List Byte
  strSkip : Nat
  strKeeping : Bool
  strOut : List Byte
  strCut : Bool
  ahead : List Byte
  staged : Tbl Tile
  deriving DecidableEq, Repr

def Loader.reset : Loader where
  phase := .none
  hdr := Header.reset
  map := none
  plan := []
  intake := []
  arrived := 0
  manifest := []
  covered := []
  arrival := []
  aborting := false
  path := 0
  isStream := false
  seat := .manager
  reason := 0
  statusPartial := false
  statusSigned := false
  abortLate := false
  phaseShown := 0
  refused := false
  done := false
  detail := 0
  expected := 0
  framesDone := 0
  frameSeq := 0
  routing := false
  buildId := 0
  timeoutMs := 2000
  gap := 100
  stage := 0
  forward := true
  accept := false
  strResult := 0
  strImages := 0
  strTerm := false
  strKept := false
  strActive := false
  strLanes := false
  strBytes := 0
  strBuf := []
  strSkip := 0
  strKeeping := false
  strOut := []
  strCut := false
  ahead := []
  staged := []

/-- Mordant (Table 7.10): sweep position, counters, first failure, pending rewrites (tile, store key, line). -/
structure Mordant where
  tile : Nat
  sweeps : Nat
  fail : Bool
  corrected : W64
  failPlace : W64
  failCycle : Nat
  cleanCycle : Nat
  failed : W64
  rewrites : List (Nat × Nat × Nat × Nat)
  deriving DecidableEq, Repr

def Mordant.reset : Mordant := ⟨0, 0, false, 0, 0, 0, 0, 0, []⟩

/-! ## Run control (chapter 8) -/

/-- Run control (Tables 8.7 to 8.10). `reqs` are the stop causes registered for the coming barrier, by cause number;
`draining` says that the stop barrier has passed or the stop was forced; `collected` that no further cause may join.
`pacePower`, `paceWear` and `paceVolt` note what bound the rails in the window under way (R186). -/
structure Run where
  st : ModState
  mode : Bool
  stopAtEn : Bool
  stopBit : Bool
  count : Nat
  stopAt : Nat
  committed : Nat
  midCycle : Bool
  holdTrail : Bool
  holdCap : Bool
  lateStop : Bool
  cancelled : Bool
  restart : Bool
  reqs : BitVec 16
  draining : Bool
  set : BitVec 16
  reason : Nat
  cause : Nat
  checkReason : Nat
  checkItem : Nat
  checkDetail : Nat
  haltCount : Nat
  haltVtile : Nat
  haltCluster : Nat
  haltBp : Nat
  haltStep : Nat
  haltNow : Nat
  haltNowWhere : Nat
  fault : Nat
  progress : Nat
  modeRun : Bool
  countRun : Nat
  fullPass : Bool
  fullNext : Bool
  baseWait : Bool
  wdogAction : Bool
  wdogMs : Nat
  stall : Bool
  overflow : Bool
  waiting : Nat
  barrierCount : Nat
  await : Option Nat
  wdogCycle : Nat
  report : List (W64 × W64)
  paceTarget : Nat
  paceCap : Nat
  paceTargetUse : Nat
  paceCapUse : Nat
  capTicks : Nat
  capCycle : Nat
  paceActual : Nat
  paceLimit : Nat
  paceCapWait : W64
  paceCommits : Nat
  paceThermal : Bool
  pacePower : Bool
  paceWear : Bool
  paceVolt : Bool
  paceWaits : Bool
  haltLow : Bool
  forcedBy : Nat
  tsRequest : Nat
  deriving DecidableEq, Repr

def Run.reset : Run where
  st := .boot
  mode := false
  stopAtEn := false
  stopBit := false
  count := 1
  stopAt := 0
  committed := 0
  midCycle := false
  holdTrail := false
  holdCap := false
  lateStop := false
  cancelled := false
  restart := false
  reqs := 0
  draining := false
  set := 0
  reason := 0
  cause := 0
  checkReason := 0
  checkItem := 0
  checkDetail := 0
  haltCount := 0
  haltVtile := 0
  haltCluster := 0
  haltBp := 0
  haltStep := 0
  haltNow := 0
  haltNowWhere := 0
  fault := 0
  progress := 0
  modeRun := false
  countRun := 1
  fullPass := false
  fullNext := false
  baseWait := false
  wdogAction := false
  wdogMs := 50
  stall := false
  overflow := false
  waiting := 0
  barrierCount := 0
  await := none
  wdogCycle := 0
  report := []
  paceTarget := 0
  paceCap := 0
  paceTargetUse := 0
  paceCapUse := 0
  capTicks := 0
  capCycle := 0
  paceActual := 0
  paceLimit := 1
  paceCapWait := 0
  paceCommits := 0
  paceThermal := false
  pacePower := false
  paceWear := false
  paceVolt := false
  paceWaits := false
  haltLow := false
  forcedBy := 0
  tsRequest := 0

/-! ## The trail (chapter 9) -/

/-- A trail record (Table 9.1), held by its words with the design cycle it belongs to. -/
structure Rec where
  cycle : Nat
  words : List W64
  deriving DecidableEq, Repr

/-- A cluster's part of a checkpoint (R194): STA words and wrap latches of its BPs, its assembler. -/
structure CkptCluster where
  tile : Nat
  cluster : Nat
  sta : Tbl (BitVec 256)
  wraps : W64
  asm : BitVec 128
  deriving DecidableEq, Repr

/-- A checkpoint (R194): its cycle, the clusters, the pin sample for the next cycle, the counts (tile, context, count) and the
items held (tile, context, their flows, the items). -/
structure Ckpt where
  cycle : Nat
  clusters : List CkptCluster
  pins : BitVec 256
  counts : List (Nat × Nat × Nat)
  items : List (Nat × Nat × List Nat × List W64)
  deriving DecidableEq, Repr

/-- The trigger nets and the tap values, by tile, at the end of a committed design cycle, which a REWIND to it shows again (R207,
R212). -/
structure Shown where
  cycle : Nat
  nets : W64
  taps : List (Nat × BitVec 256)
  deriving DecidableEq, Repr

/-- The trail (Table 9.5): four sub-rings of records (oldest first), complete checkpoints (oldest first), those being
composed, and the registers. `pinUse` and `intervalUse` are PIN and INTERVAL as sampled at the last barrier (R195, R196), `reload` is
the checkpoint that a rejoin asked for (R197). `logRecs` is the replay log (R202), the PINS, BASKET and COUNT
records of each die; `pinsOld` is the pin sample of the last committed design cycle; `shown` is what the cycles since H showed. -/
structure Trail where
  rings : Tbl (List Rec)
  ckpts : List Ckpt
  composing : List Ckpt
  reload : List Nat
  pin : Bool
  interval : Nat
  pinUse : Bool
  intervalUse : Nat
  reason : Nat
  short : BitVec 4
  headCause : Nat
  abortLate : Bool
  repairPending : Bool
  empty : Bool
  head : Nat
  ckptLast : Nat
  replay : Nat
  lastRewind : Nat
  moved : W64
  skipped : W64
  forced : W64
  rescinded : W64
  rewindBytes : W64
  selTile : Nat
  selCtx : Nat
  pinsOld : BitVec 256
  logRecs : Tbl (List Rec)
  shown : List Shown
  target : Nat
  banksTaken : Bool
  rewinding : Bool
  gen : Nat
  wrote : Bool
  deriving DecidableEq, Repr

def Trail.reset : Trail where
  rings := []
  ckpts := []
  composing := []
  reload := []
  pin := false
  interval := 12
  pinUse := false
  intervalUse := 12
  reason := 0
  short := 0
  headCause := 0
  abortLate := false
  repairPending := false
  empty := true
  head := 0
  ckptLast := 0
  replay := 0
  lastRewind := 0
  moved := 0
  skipped := 0
  forced := 0
  rescinded := 0
  rewindBytes := 0
  selTile := 0
  selCtx := 0
  pinsOld := 0
  logRecs := []
  shown := []
  target := 0
  banksTaken := false
  rewinding := false
  gen := 0
  wrote := false

/-! ## Capture (chapter 10) -/

/-- The phase of a hamper. -/
inductive CapPhase
  | none | ring | post | rearm
  deriving DecidableEq, Repr

/-- A change or keyframe of one design cycle in a die's open fold window (R211, R222): the cycle, its change records
(tap index, new value), and its keyframe if it has one (virtual tile, eight data words). -/
structure CapCycle where
  cycle : Nat
  changes : List (Nat × Bool)
  key : Option (List (Nat × BitVec 256))
  deriving DecidableEq, Repr

/-- One die's portion of the hamper under way: the open window, the ring's words with the place of each keyframe, the post
area's words and flags. Ring words are absolute: the ring holds words `start` to `start + words.length − 1`, each at slot
byte 64 + 4 × (index mod ring size). -/
structure CapDie where
  window : List CapCycle
  start : Nat
  words : List (BitVec 32)
  keys : List (Nat × Nat)
  folds : List Nat
  lastCycleWord : Option Nat
  post : List (BitVec 32)
  postFull : Bool
  postFolded : Bool
  preFolded : Bool
  shortPre : Bool
  foldedWindows : Nat
  lastPost : Nat
  deriving DecidableEq, Repr

def CapDie.reset : CapDie := ⟨[], 0, [], [], [], none, [], false, false, false, false, 0, 0⟩

/-- The capture engine and the sequencer (Table 10.11). -/
structure Cap where
  armed : Bool
  arming : Bool
  armCycle : Nat
  hampersM1 : Nat
  rearm : Nat
  postQ : Nat
  preP : Nat
  budget : Nat
  k : Nat
  f : Nat
  reason : Nat
  hamper : Nat
  phase : CapPhase
  cfgRefused : Bool
  ended : Bool
  folded : Bool
  closed : Nat
  next : Nat
  nets : W64
  lostRearm : Nat
  lostPost : Nat
  hdrLostRearm : Nat
  hdrLostPost : Nat
  foldedCount : W64
  records : W64
  slot : Nat
  trigger : Nat
  winStart : Nat
  setupDue : Bool
  heldWrites : List (Nat × BitVec 32)
  seqEntry : Tbl W64
  seqMask : Tbl W64
  seqCmp : Tbl Nat
  seqCount : Tbl Nat
  seqState : Nat
  seqTaken : Bool
  seqLast : Nat
  seqOn : Bool
  tapEn : Tbl W64
  tapFold : Tbl W64
  dies : Tbl CapDie
  deriving DecidableEq, Repr

def Cap.reset : Cap where
  armed := false
  arming := false
  armCycle := 0
  hampersM1 := 0x3FF
  rearm := 1
  postQ := 0
  preP := 0
  budget := 0
  k := 12
  f := 0
  reason := 0
  hamper := 0
  phase := .none
  cfgRefused := false
  ended := false
  folded := false
  closed := 0
  next := 0
  nets := 0
  lostRearm := 0
  lostPost := 0
  hdrLostRearm := 0
  hdrLostPost := 0
  foldedCount := 0
  records := 0
  slot := 0
  trigger := 0
  winStart := 0
  setupDue := false
  heldWrites := []
  seqEntry := []
  seqMask := []
  seqCmp := []
  seqCount := []
  seqState := 0
  seqTaken := false
  seqLast := 0
  seqOn := false
  tapEn := []
  tapFold := []
  dies := []

/-! ## Basket (chapter 11) -/

/-- A submitted descriptor that has not become DONE (Table 11.1, words 0 to 3 as read at submission), with its state, its
remaining dependence count, the design cycle and the ordinal of its delivery, the successors that its completion has
decremented, and its completion's design cycle and data. An item replayed without a head (R241) stands as a DELIVERED one
with slot 2^24. -/
structure Desc where
  slot : Nat
  prio : Nat
  port : Nat
  flow : Nat
  succ : List Nat
  item : W64
  st : Nat
  deps : Nat
  delivered : Nat
  ord : Nat
  decd : List Nat
  doneCycle : Nat
  result : W64
  reported : Bool
  deriving DecidableEq, Repr

/-- What Basket still has to decide: the slots of a submission, from `slot` on, with what the earlier ones came to (`code` of the last
refused one), for a SUBMIT command or a register write; or a descriptor that goes back to its flow (R230, R239). -/
inductive BktJob
  | submit (cmd : Bool) (slot left accepted code : Nat)
  | give (slot : Nat)
  deriving DecidableEq, Repr

/-- Basket (Table 11.8). `descs` are kept in submission order; `ready` is the order in which flows joined their ready
lists; `staged` holds (port, cycle, data) in posting order; `report` the ring entries to write (KIND, FLOW, INDEX, CYCLE),
oldest first; `done` the reported completions that a rewind may still undo; `ringDue` says that ring entries of the last commit are
still to be written before the line is pulsed (R236); `jobs` are the decisions that the funnel or the service network delays, oldest first
(R237, R323). -/
structure Basket where
  jobs : List BktJob
  descs : List Desc
  ready : List Nat
  staged : List (Nat × Nat × W64)
  report : List (Nat × Nat × Nat × Nat)
  done : List Desc
  head : Nat
  tail : Nat
  phase : Bool
  reason : Nat
  badIndex : Nat
  replayMismatch : Bool
  complOrphan : Bool
  depOrphan : Bool
  refused : Bool
  submitted : W64
  refusedCount : W64
  deliveredCount : W64
  completed : W64
  depOrphans : W64
  depUnderflow : W64
  complOrphans : W64
  replayMismatches : W64
  returned : W64
  hostWriteRefused : W64
  ringDue : Bool
  traceWait : W64
  flowSel : Nat
  window : Tbl Nat
  delivOpen : Bool
  deliverNo : Nat
  deriving DecidableEq, Repr

def Basket.reset : Basket where
  jobs := []
  descs := []
  ready := []
  staged := []
  report := []
  done := []
  head := 0
  tail := 0
  phase := true
  reason := 0
  badIndex := 0
  replayMismatch := false
  complOrphan := false
  depOrphan := false
  refused := false
  submitted := 0
  refusedCount := 0
  deliveredCount := 0
  completed := 0
  depOrphans := 0
  depUnderflow := 0
  complOrphans := 0
  replayMismatches := 0
  returned := 0
  hostWriteRefused := 0
  ringDue := false
  traceWait := 0
  flowSel := 0
  window := []
  delivOpen := false
  deliverNo := 0

/-! ## Lanes and links (chapter 12) -/

/-- A serial lane (Table 12.11); `trains` counts identical TRAIN blocks received in a row, `lastTrain` the block;
`bad` invalid headers of frames since lock (R251); `farLock` is FAR_END's block lock (R262), `gen` and `chk` the pattern generator and
checker (R263), `scr` the scrambler (R249) and `line` the scrambled blocks put on the lane, oldest first. -/
structure Lane where
  cfg : W64
  loop : Nat
  ppm : Int
  scanRefused : Bool
  loopRefused : Bool
  chkLocked : Bool
  signal : Bool
  inverted : Bool
  scanFromLoop : Bool
  st : LaneSt
  syncErr : W64
  lockLoss : W64
  pat : W64
  patBits : W64
  patErrors : W64
  scanStart : Bool
  scan : W64
  scanDone : Bool
  scanInvalid : Bool
  scanErrors : Nat
  adapted : Bool
  trains : Nat
  lastTrain : W64
  gotAck : Bool
  bad : Nat
  farLock : Bool
  gen : BitVec 31
  chk : BitVec 31
  clean : Nat
  scr : BitVec 58
  line : List (BitVec 2 × W64)
  deriving DecidableEq, Repr

def Lane.reset : Lane where
  cfg := 0x42CC
  loop := 0
  ppm := 0
  scanRefused := false
  loopRefused := false
  chkLocked := false
  signal := false
  inverted := false
  scanFromLoop := false
  st := .down
  syncErr := 0
  lockLoss := 0
  pat := 3
  patBits := 0
  patErrors := 0
  scanStart := false
  scan := 0x18_0000
  scanDone := false
  scanInvalid := false
  scanErrors := 0
  adapted := false
  trains := 0
  lastTrain := 0
  gotAck := false
  bad := 0
  farLock := false
  gen := 0x7FFF_FFFF
  chk := 0
  clean := 0
  scr := 0
  line := []

/-- A frame sent and not yet acknowledged (R260). -/
structure TxFrame where
  seq : Nat
  words : List W64
  deriving DecidableEq, Repr

/-- A link, kept under its lowest lane (Table 12.12) with the state of frames, replay and credit (R258 to R260), the
exchange side (egress queue, horizon group, received words, early buffer) and the exchange counters (Table 4.9).
`wire` holds the control blocks this end has put on its lanes, oldest first, each with its data blocks; `blockNo` numbers the blocks
that the members share in turn (R249). -/
structure Link where
  cfg : W64
  training : Bool
  entering : Nat
  reason : Nat
  restart : Bool
  inUse : Bool
  cfgRefused : Bool
  version : Nat
  rate : Nat
  skew : Nat
  partner : W64
  replays : W64
  crcErrors : W64
  retrains : W64
  retrainFails : W64
  creditStall : W64
  replayStall : W64
  everUp : Bool
  retraining : Bool
  failsAtLoss : W64
  atFull : Bool
  lastUp : W64
  txSeq : Nat
  replay : List TxFrame
  resend : Nat
  rxSeq : Nat
  nakPending : Bool
  nakSeq : Nat
  nakRow : Nat
  nakInSeq : Nat
  nakInRow : Nat
  credit : Nat
  creditSeen : Nat
  freed : Nat
  egress : List W64
  rx : List W64
  horizons : Tbl Nat
  markH : Option Nat
  linkH : Nat
  eocIn : Bool
  eocSent : Bool
  tokensTx : W64
  tokensRx : W64
  marksTx : W64
  marksRx : W64
  eocCycle : Nat
  mismatch : W64
  unrouted : W64
  earlyPeak : Nat
  blockNo : Nat
  wire : List (W64 × List W64)
  deriving DecidableEq, Repr

def Link.reset : Link where
  cfg := 0x1030
  training := false
  entering := 0
  reason := 0
  restart := false
  inUse := false
  cfgRefused := false
  version := 0
  rate := 0
  skew := 0
  partner := 0
  replays := 0
  crcErrors := 0
  retrains := 0
  retrainFails := 0
  creditStall := 0
  replayStall := 0
  everUp := false
  retraining := false
  failsAtLoss := 0
  atFull := false
  lastUp := 0
  txSeq := 0
  replay := []
  resend := 0
  rxSeq := 0xFFF
  nakPending := false
  nakSeq := 0
  nakRow := 0
  nakInSeq := 0
  nakInRow := 0
  credit := 4096
  creditSeen := 0
  freed := 0
  egress := []
  rx := []
  horizons := []
  markH := none
  linkH := 0
  eocIn := false
  eocSent := false
  tokensTx := 0
  tokensRx := 0
  marksTx := 0
  marksRx := 0
  eocCycle := 0
  mismatch := 0
  unrouted := 0
  earlyPeak := 0
  blockNo := 0
  wire := []

/-! ## Systems and twins (chapter 13) -/

/-- System registers (Table 13.6); `strandLane` is the lane of the link whose loss made the module STRANDED (R170 item 1). -/
structure Sys where
  margin : Nat
  diameter : Nat
  master : Bool
  reason : Nat
  planDone : Bool
  lost : Bool
  lostLane : Nat
  strandLane : Nat
  lostModid : Nat
  lostCycle : Nat
  planStop : Nat
  planRewind : Nat
  viewCommitted : Tbl W64
  viewHead : Tbl W64
  deriving DecidableEq, Repr

def Sys.reset : Sys := ⟨0x4000, 0, false, 0, false, false, 0, 0, 0, 0, 0, 0, [], []⟩

/-- The pair registers (Table 13.6), heartbeat, mirroring, relay and detach. `inTransfer` is the checkpoint on its way to the
twin, `mirrorQueued` says that its messages have been formed, `mirrorPrev` is the mirror before the last one that arrived;
`inLen` the bytes of the slot being received; `outbox` holds the pair messages that wait for the link, oldest first. -/
structure Pair where
  mint : Nat
  relayAny : Bool
  mirror : Bool
  enable : Bool
  reason : Nat
  twinModid : Nat
  twinState : Nat
  detached : Bool
  detaching : Bool
  twinDetached : Bool
  twinGone : Bool
  twinAlive : Bool
  hbMissed : W64
  hbRow : Nat
  mirrorOut : Nat
  mirrorIn : Nat
  mirrorSkipped : W64
  relayed : W64
  absorbed : W64
  wrongTwin : Bool
  mirrorStopped : Bool
  inTransfer : Option Ckpt
  mirrorQueued : Bool
  mirrorPrev : Nat
  inLen : Nat
  arrived : List (List W64)
  outSlot : Bool
  relayBuf : List W64
  rspBuf : List W64
  outbox : List (List W64)
  deriving DecidableEq, Repr

def Pair.reset : Pair where
  mint := 16
  relayAny := false
  mirror := false
  enable := true
  reason := 0
  twinModid := 0
  twinState := 0
  detached := false
  detaching := false
  twinDetached := false
  twinGone := false
  twinAlive := false
  hbMissed := 0
  hbRow := 0
  mirrorOut := 0
  mirrorIn := 0
  mirrorSkipped := 0
  relayed := 0
  absorbed := 0
  wrongTwin := false
  mirrorStopped := false
  inTransfer := none
  mirrorQueued := false
  mirrorPrev := 0
  inLen := 0
  arrived := []
  outSlot := false
  relayBuf := []
  rspBuf := []
  outbox := []

/-! ## Host attachment (chapter 14) -/

/-- An accepted mailbox command (R298): who issued it, whether it was relayed from the twin, opcode, tag, length, parameter
words, the form its header was read in, the protection under which it
was accepted, and the port it arrived on; `refused` is the code of a command that failed a check on its way in and waits for its
response, else 0. -/
structure Cmd where
  seat : Seat
  relayed : Bool
  opcode : Nat
  tag : Nat
  length : Nat
  params : List W64
  v1 : Bool
  prot : W64
  port : Port
  refused : Nat := 0
  deriving DecidableEq, Repr

/-- A seat (Tables 14.9 and 14.10), its buffers, its MSI-X table, and the PSP halfwords gathered (board seat). -/
structure SeatSt where
  session : Bool
  port : Port
  version : Nat
  cmdBuf : Mem
  rspBuf : Mem
  ring : Bool
  exec : Bool
  lastReason : Nat
  lastTag : Nat
  doorbellRefused : Bool
  done : Bool
  refused : W64
  snAddr : W64
  snData : W64
  snErr : Bool
  snWrite : Bool
  snGo : Bool
  bar2Base : Nat
  deniedCount : W64
  gen : Nat
  denied : Bool
  prot : W64
  protUse : W64
  msix : Tbl W64
  msixEnable : Bool
  funcMask : Bool
  busMaster : Bool
  discard : Bool
  deriving DecidableEq, Repr

def SeatSt.reset (prot : W64) (port : Port) : SeatSt where
  session := false
  port := port
  version := 0
  cmdBuf := []
  rspBuf := []
  ring := false
  exec := false
  lastReason := 0
  lastTag := 0
  doorbellRefused := false
  done := false
  refused := 0
  snAddr := 0
  snData := 0
  snErr := false
  snWrite := false
  snGo := false
  bar2Base := 0
  deniedCount := 0
  gen := 0
  denied := false
  prot := prot
  protUse := prot
  msix := []
  msixEnable := true
  funcMask := false
  busMaster := true
  discard := false

/-- The answer to the last access of an initiator: its STATUS (Table 15.4), data, and how PCIe or the serial port shows it. -/
structure Answer where
  status : Nat
  data : W64
  abort : Bool
  unsupported : Bool
  ignored : Bool
  denied : Bool
  shifted : List Byte := []
  deriving DecidableEq, Repr

def Answer.reset : Answer := ⟨0, 0, false, false, false, false, []⟩

/-- Host ports, seats, the order of accepted commands, the long operation, the status mirror, protection, the board's
serial port, host memory as the module's DMA wrote it. -/
structure Host' where
  manager : SeatSt
  run : SeatSt
  diag : SeatSt
  board : SeatSt
  order : List Cmd
  longKind : Nat
  longSeat : Seat
  longCmd : Option Cmd
  held : List Cmd
  upA : Bool
  upB : Bool
  crsA : Bool
  crsB : Bool
  protGen : Nat
  mirrorSeq : W64
  mirror : Tbl W64
  answer : Answer
  pspHalf : Tbl (BitVec 16)
  pspRead : Option (Nat × W64)
  pspAnswer : BitVec 16
  spiStatus : Nat
  spiOpen : Bool
  dmaA : Mem
  dmaB : Mem
  dumpBytes : Nat
  dumpAbort : Bool
  msixSent : List (Port × Nat × W64 × W64)
  deriving DecidableEq, Repr

/-- The Keep store's directory and keys (R309, R310), the diagnostic log (R311), the slots' bytes. Slot states: 0 EMPTY,
1 STAGING, 2 PENDING, 3 ACTIVE, 4 BACKUP, 5 FAILED. -/
structure Keep where
  slotA : Mem
  slotB : Mem
  stagedA : List (Nat × Nat)
  stagedB : List (Nat × Nat)
  stA : Nat
  stB : Nat
  verA : Nat
  verB : Nat
  bootedA : Bool
  bootedB : Bool
  rollback : Nat
  rollA : Nat
  rollB : Nat
  keys : Tbl (Nat × Nat)
  required : Bool
  calib : Mem
  ledger : Tbl W64
  ledgerWord : Nat
  log : List (List W64)
  logNext : Nat
  selftest : Option (BitVec 4)
  deriving DecidableEq, Repr

/-! ## Service network (chapter 15) -/

/-- A probe (Table 15.8). -/
structure Probe where
  cfg : W64
  lo : Nat
  hi : Nat
  packets : W64
  flits : W64
  stall : W64
  dropped : W64
  deriving DecidableEq, Repr

def Probe.reset : Probe := ⟨0x0000_7F80_0000_0000, 0, 0xFF_FFFF_FFFF, 0, 0, 0, 0⟩

/-- What an access goes back to: SN_CTRL of a seat, a BAR2 access of a size, a REG_READ or REG_WRITE, the SPI slave, a master that sees
its answer (`direct`), or one that sees no data (`posted`). -/
inductive Via
  | snCtrl (s : Seat)
  | bar2 (size : Nat)
  | cmd (c : Cmd)
  | spi
  | direct (m : Master)
  | posted (m : Master)
  deriving DecidableEq, Repr
/-- An access whose injection waits (R318, R320, R322, R323): its initiator, address, and for a write the word and its byte
enables; `after` is how many packets waited in `Sn.waiting` before it. -/
structure Held where
  via : Via
  master : Master
  addr : Nat
  write : Option (W64 × Nat)
  env : PinEnv
  after : Nat
  deriving DecidableEq, Repr

/-- The service network (Tables 15.7 and 15.8): epoch and route banks (each entry as its difference from the reset route, under
(router × 2,048 + destination) × 2 + bank), dead nodes and nodes under revival, affected nodes, error log, power domains, probes;
`owed` holds the performed requests whose responses have not returned, with STATUS and data, `late` those whose nodes are dead, `lost`
those whose responses were lost on their way, `waiting` the requests that their initiators may not inject yet, `held` the accesses of
masters that wait likewise. -/
structure Sn where
  rtRefused : Bool
  swapPending : Bool
  draining : Bool
  current : Bool
  router : Nat
  bank : Bool
  dest : Nat
  routes : Tbl (BitVec 3)
  blocked : W64
  rbWait : W64
  deadDropped : W64
  lateResp : W64
  absorbed : W64
  dead : Tbl W64
  revive : List Nat
  affect : Tbl W64
  errLog : Tbl W64
  domains : Tbl (BitVec 3)
  probes : Tbl Probe
  owed : List Packet
  late : List Packet
  lost : List Packet
  waiting : List (Packet × PinEnv)
  held : List Held
  deriving DecidableEq, Repr

def Sn.reset : Sn where
  rtRefused := false
  swapPending := false
  draining := false
  current := false
  router := 0
  bank := false
  dest := 0
  routes := []
  blocked := 0
  rbWait := 0
  deadDropped := 0
  lateResp := 0
  absorbed := 0
  dead := []
  revive := []
  affect := []
  errLog := []
  domains := []
  probes := []
  owed := []
  late := []
  lost := []
  waiting := []
  held := []

/-! ## Interrupt controller (chapter 15) -/

/-- A claim in progress on a target: the source and its priority when claimed (R331). -/
structure Claim where
  source : Nat
  prio : Nat
  deriving DecidableEq, Repr

/-- The interrupt controller (Tables 15.11 and 15.12). `claims` holds each target's claims, most recent first; `cfg` each
IRQ_SRC_CFG as its difference from the reset value; `selected` each target's selection, 0 for none; `msixOut` the host vectors
with a message outstanding. -/
structure Irq where
  threshold : Tbl Nat
  claims : Tbl (List Claim)
  edge : Tbl W64
  soft : Tbl W64
  line : Tbl W64
  active : Tbl W64
  linkEvent : Tbl W64
  cfg : Tbl W64
  badComplete : W64
  merged : W64
  spurious : W64
  msixOut : BitVec 16
  selected : Tbl Nat
  deriving DecidableEq, Repr

def Irq.reset : Irq := ⟨[], [], [], [], [], [], [], [], 0, 0, 0, 0, []⟩

/-- An EVENT packet on its way to the interrupt controller (R327): source, whether it is a pulse, the line's level, and of a
link-state source the link's lowest lane, 1,024 for none; the node that sends it, and the epoch by which it travels, `none` while
its injection waits for an epoch drain (R323). -/
structure Event where
  source : Nat
  pulse : Bool
  level : Bool
  lane : Nat
  node : Nat
  sent : Option Bool
  deriving DecidableEq, Repr

/-! ## Trace funnel (chapter 16) -/

/-- A packet formed by a source and waiting for the funnel: source, kind, payload words, timestamp. -/
structure TrcPkt where
  src : Nat
  kind : Nat
  words : List W64
  ts : Nat
  deriving DecidableEq, Repr

/-- The trace funnel (Table 16.6): packets waiting at their sources, the open page, pages completed and not yet written, the
sequence number of the next page; of each source the packets lost since its last accepted one; of each core the CORE_SYNC cause
that it owes and its timestamp, its last address, whether it runs (0), flushes toward low power (1, 3 with a wake held) or sleeps (2), the atoms that its
trace unit has gathered, and whether it owes CORE_SYNC of cause OVERFLOW; the source that the funnel took a packet from last. -/
structure Trace where
  flushUs : Nat
  seat : Nat
  stop : Bool
  output : Nat
  enable : Bool
  srcEn : W64
  cut : Bool
  full : Bool
  cfgRefused : Bool
  restart : Bool
  flushing : Bool
  active : Bool
  pages : Nat
  hostBase : W64
  hostPages : Nat
  hostRd : Nat
  dropped : Tbl W64
  waiting : List TrcPkt
  page : Option (List W64)
  done : List (List W64)
  seq : Nat
  lost : Tbl Nat
  needSync : Tbl Nat
  syncTs : Tbl Nat
  coreAddr : Tbl W64
  cores : Tbl Nat
  atoms : Tbl (List Bool)
  overflow : Tbl Bool
  turn : Nat
  deriving DecidableEq, Repr

def Trace.reset : Trace where
  flushUs := 100
  seat := 0
  stop := false
  output := 0
  enable := false
  srcEn := 0
  cut := false
  full := false
  cfgRefused := false
  restart := false
  flushing := false
  active := false
  pages := 0
  hostBase := 0
  hostPages := 0
  hostRd := 0
  dropped := []
  waiting := []
  page := none
  done := []
  seq := 0
  lost := []
  needSync := []
  syncTs := []
  coreAddr := []
  cores := []
  atoms := []
  overflow := []
  turn := 0xFF

/-! ## Clocks, power, Thermos, board pins (chapters 17 and 18) -/

/-- Clocks and power (Table 17.10). `pw` is the power state: 0 RUN, 1 entering, 2 exiting, 3 SLEEP, 4 DEEP (shown by no
code). `tried` is the slot that the last boot tried, `tryOther` says that the next one takes the other (R356). -/
structure Clk where
  switches : Nat
  switchRefused : Bool
  bothLost : Bool
  pllLost : Bool
  xtalLost : Bool
  failed : Bool
  xtalOk : Bool
  ioscReady : Bool
  source : Bool
  hbmcRestart : Bool
  hbmcStopping : Bool
  gate : W64
  pllRelocking : Bool
  frozen : Bool
  failBarrier : Bool
  tioReenable : Bool
  tsc : Nat
  tscNew : Option Nat
  tscSeq : Nat
  approx : Bool
  stReason : Nat
  stDetail : Nat
  fallback : Bool
  slot : Bool
  tried : Bool
  tryOther : Bool
  stFailed : Bool
  stage : Nat
  pwReason : Nat
  lastWake : Nat
  sleepAborted : Bool
  lastState : Nat
  pw : Nat
  pwTarget : Nat
  pwRequested : Bool
  timerUs : Nat
  wakeEn : BitVec 4
  refclk : BitVec 16
  calibrated : BitVec 16
  deriving DecidableEq, Repr

def Clk.reset : Clk where
  switches := 0
  switchRefused := false
  bothLost := false
  pllLost := false
  xtalLost := false
  failed := false
  xtalOk := false
  ioscReady := true
  source := false
  hbmcRestart := false
  hbmcStopping := false
  gate := 0b111_011_011_001_011_011
  pllRelocking := false
  frozen := false
  failBarrier := false
  tioReenable := false
  tsc := 0
  tscNew := none
  tscSeq := 0
  approx := false
  stReason := 0
  stDetail := 0
  fallback := false
  slot := false
  tried := false
  tryOther := false
  stFailed := false
  stage := 0
  pwReason := 0
  lastWake := 0
  sleepAborted := false
  lastState := 0
  pw := 0
  pwTarget := 0
  pwRequested := false
  timerUs := 0
  wakeEn := 1
  refclk := 0
  calibrated := 0

/-- Thermos (Table 17.10) and the readings it last took; `vout` is VOUT_COMMAND by PMBus address (R362). -/
structure Thermos where
  limitW : Nat
  maxMv : Nat
  idleMv : Nat
  warnC : Nat
  throttleC : Nat
  reason : Nat
  setMv : Nat
  powerW : Nat
  railFault : Bool
  wearCapped : Bool
  throttling : Bool
  warn : Bool
  rails : Tbl (Nat × Nat × BitVec 16)
  hubTemp : BitVec 16
  hbmTemp : BitVec 16
  throttles : W64
  pmbus : W64
  vout : Tbl Nat
  wearSeconds : Nat
  aboveFor : Nat
  deriving DecidableEq, Repr

def Thermos.reset : Thermos where
  limitW := 850
  maxMv := 850
  idleMv := 650
  warnC := 100
  throttleC := 105
  reason := 0
  setMv := 0
  powerW := 0
  railFault := false
  wearCapped := false
  throttling := false
  warn := false
  rails := []
  hubTemp := 0
  hbmTemp := 0
  throttles := 0
  pmbus := 0x0870_A0C0
  vout := []
  wearSeconds := 0
  aboveFor := 0

/-- The JTAG instructions of R378. -/
inductive Jtag
  | extest | idcode | samplePreload | extestPulse | extestTrain | highz | clamp | bypass
  deriving DecidableEq, Repr

/-- Board-side pins: WAKE_N low, THERMTRIP_N driven low, PWR_OK, the lanes at electrical idle, the JTAG instruction loaded, the
boundary cells of the TIO lands (levels sampled, output levels and enables), of ALERT_N and THERMTRIP_N (driven low), and those of the other
4,317 signal lands of Table 18.1 in words of 64, in the table's order. -/
structure Pins where
  wakeLow : Bool
  thermtrip : Bool
  pwrOk : Bool
  lanesIdle : Bool
  jtag : Jtag
  cellIn : BitVec 256
  cellOut : BitVec 256
  cellEn : BitVec 256
  cellAlert : Bool
  cellTrip : Bool
  landIn : List W64
  landOut : List W64
  landEn : List W64
  deriving DecidableEq, Repr

def Pins.reset : Pins := ⟨false, false, true, false, .idcode, 0, 0, 0, false, false, [], [], []⟩

/-- Everything but the command queue and the interrupt controller. -/
structure Dev where
  fuse : Fuse
  tiles : Tbl Tile
  exch : Exch
  tio : Tio
  mem : MemRegs
  regions : Tbl Region
  image : Header
  ld : Loader
  mordant : Mordant
  run : Run
  trail : Trail
  cap : Cap
  bkt : Basket
  lanes : Tbl Lane
  links : Tbl Link
  sys : Sys
  pair : Pair
  host : Host'
  keep : Keep
  sn : Sn
  events : List Event
  trc : Trace
  clk : Clk
  th : Thermos
  pins : Pins
  free : Nat
  deriving DecidableEq, Repr

/-- The module with its queue of waiting commands, first in, first out. -/
structure State where
  pending : List Instr
  irq : Irq
  dev : Dev
  deriving DecidableEq, Repr

/-! ## Reset -/

/-- A ZPE-524 S1 B0 with MODID 0 and spares at tile indices 128 to 131 of each die (log entry 2). -/
def Fuse.reset : Fuse where
  zpe393 := false
  bin := 1
  stepping := 2
  spares := [128, 129, 130, 131, 260, 261, 262, 263, 392, 393, 394, 395, 524, 525, 526, 527]
  modid := 0

def Host'.reset : Host' where
  manager := SeatSt.reset 0xFFF0_0000_FFFF_FFFF .a
  run := SeatSt.reset 0xF9F0_0000_FFFF_FFFF .a
  diag := SeatSt.reset 0x10B0_0000_0000_0000 .a
  board := SeatSt.reset 0xC630_0000_FFFF_FFFF .psp
  order := []
  longKind := 0
  longSeat := .manager
  longCmd := none
  held := []
  upA := false
  upB := false
  crsA := true
  crsB := true
  protGen := 0
  mirrorSeq := 0
  mirror := []
  answer := Answer.reset
  pspHalf := []
  pspRead := none
  pspAnswer := 0
  spiStatus := 0
  spiOpen := false
  dmaA := []
  dmaB := []
  dumpBytes := 0
  dumpAbort := false
  msixSent := []

/-- The Keep store as shipped: Fovia runs from slot A (ACTIVE), slot B EMPTY, no image-signing key (log entry 3). -/
def Keep.reset : Keep where
  slotA := []
  slotB := []
  stagedA := []
  stagedB := []
  stA := 3
  stB := 0
  verA := 0
  verB := 0
  bootedA := false
  bootedB := false
  rollback := 0
  rollA := 0
  rollB := 0
  keys := []
  required := false
  calib := []
  ledger := []
  ledgerWord := 0
  log := []
  logNext := 0
  selftest := none

def Dev.reset : Dev where
  fuse := Fuse.reset
  tiles := []
  exch := Exch.reset
  tio := Tio.reset
  mem := MemRegs.reset
  regions := []
  image := Header.reset
  ld := Loader.reset
  mordant := Mordant.reset
  run := Run.reset
  trail := Trail.reset
  cap := Cap.reset
  bkt := Basket.reset
  lanes := []
  links := []
  sys := Sys.reset
  pair := Pair.reset
  host := Host'.reset
  keep := Keep.reset
  sn := Sn.reset
  events := []
  trc := Trace.reset
  clk := Clk.reset
  th := Thermos.reset
  pins := Pins.reset
  free := 0

/-- The module right after power-on reset: in BOOT, no start-up stage passed, nothing listed in any table. -/
def State.reset : State := ⟨[], Irq.reset, Dev.reset⟩

end Sys2Proof.Machine
end

