-- ==== Sys2Proof/Machine/Tbl.lean ====
section
/-! DEFINITION. Reading and writing sparse tables and byte memories in their canonical form, and bit fields of words. -/

namespace Sys2Proof.Machine

/-- The entry of a table at a key, `d` where none is listed. -/
def tget {α : Type} (d : α) : Tbl α → Nat → α
  | [], _ => d
  | (k, v) :: r, i => if i = k then v else tget d r i

/-- A table without the entries of a key. -/
def tdrop {α : Type} : Tbl α → Nat → Tbl α
  | [], _ => []
  | (k, v) :: r, i => if i = k then tdrop r i else (k, v) :: tdrop r i

/-- Puts a value before the first key that is not below `i`, in place of every entry of that key; the default value is not listed. -/
def tset {α : Type} [DecidableEq α] (d : α) : Tbl α → Nat → α → Tbl α
  | [], i, x => if x = d then [] else [(i, x)]
  | (k, v) :: r, i, x =>
    if i < k then (if x = d then (k, v) :: tdrop r i else (i, x) :: (k, v) :: tdrop r i)
    else if i = k then (if x = d then tdrop r i else (i, x) :: tdrop r i)
    else (k, v) :: tset d r i x

/-- Changes the entry at a key. -/
def tupd {α : Type} [DecidableEq α] (d : α) (t : Tbl α) (i : Nat) (f : α → α) : Tbl α :=
  tset d t i (f (tget d t i))

/-- Canonical form from a lower bound on the keys. -/
def twfFrom {α : Type} [DecidableEq α] (d : α) : Nat → Tbl α → Bool
  | _, [] => true
  | lo, (k, v) :: r => decide (lo ≤ k) && decide (v ≠ d) && twfFrom d (k + 1) r

/-- Canonical form: keys strictly rising, no default listed. -/
def twf {α : Type} [DecidableEq α] (d : α) (t : Tbl α) : Bool := twfFrom d 0 t

/-- The canonical form of a byte memory. -/
abbrev Memory.wf (m : Mem) : Bool := twf (0 : Byte) m

/-- One byte of a memory. -/
def mget (m : Mem) (a : Nat) : Byte := tget 0 m a

/-- Writes one byte. -/
def mset (m : Mem) (a : Nat) (b : Byte) : Mem := tset 0 m a b

/-- `n` bytes from `a`, little-endian, as a number. -/
def mread (m : Mem) (a : Nat) : Nat → Nat
  | 0 => 0
  | n + 1 => (mget m a).toNat + 256 * mread m (a + 1) n

/-- The low `n` bytes of `v` to `a` onwards, little-endian. -/
def mwrite (m : Mem) (a : Nat) : Nat → Nat → Mem
  | 0, _ => m
  | n + 1, v => mwrite (mset m a (BitVec.ofNat 8 v)) (a + 1) n (v / 256)

/-- As `mwrite`, for the bytes whose enable bit is set. -/
def mwriteBe (m : Mem) (a : Nat) : Nat → Nat → Nat → Mem
  | 0, _, _ => m
  | n + 1, v, be =>
    mwriteBe (if be % 2 = 1 then mset m a (BitVec.ofNat 8 v) else m) (a + 1) n (v / 256) (be / 2)

/-- A byte string written from `a` onwards. -/
def mwriteBytes (m : Mem) (a : Nat) : List Byte → Mem
  | [] => m
  | b :: r => mwriteBytes (mset m a b) (a + 1) r

/-- `n` bytes from `a` onwards. -/
def mbytes (m : Mem) (a : Nat) : Nat → List Byte
  | 0 => []
  | n + 1 => mget m a :: mbytes m (a + 1) n

/-- 64-bit words written one after another. -/
def mwriteWords (m : Mem) (a : Nat) : List W64 → Mem
  | [] => m
  | w :: r => mwriteWords (mwrite m a 8 w.toNat) (a + 8) r

/-- Drops every cell of the range from `a` up to `b`, which then reads 0. -/
def mclear (m : Mem) (a b : Nat) : Mem := m.filter fun c => !(a ≤ c.1 && c.1 < b)

/-! ## Words -/

/-- A Bool as a number. -/
def b2n (b : Bool) : Nat := if b then 1 else 0

/-- Field [hi:lo] of a word. -/
def fld (w : W64) (hi lo : Nat) : Nat := w.toNat >>> lo % 2 ^ (hi + 1 - lo)

/-- Field [hi:lo] of a number. -/
def nfld (w hi lo : Nat) : Nat := w >>> lo % 2 ^ (hi + 1 - lo)

/-- Bit i of a word. -/
def bit (w : W64) (i : Nat) : Bool := w.getLsbD i

/-- A word from fields, each given by its lowest bit, its width and its value. -/
def word : List (Nat × Nat × Nat) → W64
  | [] => 0
  | (lo, len, v) :: r => BitVec.ofNat 64 ((v % 2 ^ len) <<< lo) ||| word r

/-- A number as a word. -/
def w64 (n : Nat) : W64 := BitVec.ofNat 64 n

/-- A one-bit field. -/
def fb (i : Nat) (b : Bool) : Nat × Nat × Nat := (i, 1, b2n b)

/-- Sets bit `i` of a bit vector to `b`. -/
def setBit {n : Nat} (w : BitVec n) (i : Nat) (b : Bool) : BitVec n :=
  if b then w ||| BitVec.twoPow n i else w &&& ~~~(BitVec.twoPow n i)

/-- Replaces field [hi:lo] of a word. -/
def setFld (w : W64) (hi lo v : Nat) : W64 :=
  let m := w64 ((2 ^ (hi + 1 - lo) - 1) <<< lo)
  (w &&& ~~~m) ||| (w64 (v <<< lo) &&& m)

/-- The bits of `v` under a write mask, the others from `old` (RW fields among reserved or RO ones, R5). -/
def maskW (mask old v : W64) : W64 := (old &&& ~~~mask) ||| (v &&& mask)

/-- Parity of the low `n` bits. -/
def parity : Nat → Nat → Bool
  | 0, _ => false
  | n + 1, v => v.testBit n ^^ parity n v

/-- The set bits of a number below `n`, rising. -/
def bitsOf (n v : Nat) : List Nat := (List.range n).filter v.testBit

/-- A number as `n` little-endian bytes. -/
def bytesOf : Nat → Nat → List Byte
  | 0, _ => []
  | n + 1, v => BitVec.ofNat 8 v :: bytesOf n (v / 256)

/-- Little-endian bytes as a number. -/
def natOf : List Byte → Nat
  | [] => 0
  | b :: r => b.toNat + 256 * natOf r

/-- Big-endian bytes as a number. -/
def natOfBE (l : List Byte) : Nat := natOf l.reverse

/-- Bytes [a, a+n) of a list as a little-endian number. -/
def leAt (l : List Byte) (a n : Nat) : Nat := natOf ((l.drop a).take n)

/-- Bytes as 64-bit words, a short last word padded with zeros. -/
def wordsOf : List Byte → List W64
  | a :: b :: c :: d :: e :: f :: g :: h :: r => w64 (natOf [a, b, c, d, e, f, g, h]) :: wordsOf r
  | [] => []
  | l => [w64 (natOf l)]

/-- Words as bytes. -/
def bytesOfWords (l : List W64) : List Byte := l.flatMap fun w => bytesOf 8 w.toNat

/-- Insertion into a rising list without repeats. -/
def insertNat (x : Nat) : List Nat → List Nat
  | [] => [x]
  | y :: r => if x < y then x :: y :: r else if x = y then y :: r else y :: insertNat x r

/-- A stable sort, rising by a key. -/
def sortBy {α : Type} (key : α → Nat) : List α → List α
  | [] => []
  | x :: r => insLow key x (sortBy key r)
where
  /-- Insertion before those with a key at or above its own. -/
  insLow {α : Type} (key : α → Nat) (x : α) : List α → List α
    | [] => [x]
    | y :: r => if key x ≤ key y then x :: y :: r else y :: insLow key x r

/-- The last element of a list that meets `p`. -/
def findLast? {α : Type} (p : α → Bool) (l : List α) : Option α := l.reverse.find? p

end Sys2Proof.Machine
end

