-- ==== Sys2Proof/Machine/Ops.lean ====
section
/-! DEFINITION. The named operations every family shares: reading and changing parts of the state, the geometry of the dies,
open values, events to the interrupt controller, trace packets, the diagnostic log, module-state changes, stop requests. -/

namespace Sys2Proof.Machine

/-! ## Parts of the state -/

def tileOf (d : Dev) (p : Nat) : Tile := tget Tile.reset d.tiles p
def updTile (d : Dev) (p : Nat) (f : Tile → Tile) : Dev := { d with tiles := tupd Tile.reset d.tiles p f }
def clusterOf (T : Tile) (c : Nat) : Cluster := tget Cluster.reset T.clusters c
def Tile.updCluster (T : Tile) (c : Nat) (f : Cluster → Cluster) : Tile :=
  { T with clusters := tupd Cluster.reset T.clusters c f }
def updCluster (d : Dev) (p c : Nat) (f : Cluster → Cluster) : Dev := updTile d p (·.updCluster c f)
def bpOf (C : Cluster) (b : Nat) : Bp := tget Bp.reset C.bps b
def ctxOf (T : Tile) (q : Nat) : Ctx := tget Ctx.reset T.ctxs q
def updCtx (d : Dev) (p q : Nat) (f : Ctx → Ctx) : Dev :=
  updTile d p fun T => { T with ctxs := tupd Ctx.reset T.ctxs q f }
def bankOf (T : Tile) (b : Nat) : Bank := tget Bank.reset T.banks b
def updBank (d : Dev) (p b : Nat) (f : Bank → Bank) : Dev :=
  updTile d p fun T => { T with banks := tupd Bank.reset T.banks b f }
def regionOf (d : Dev) (r : Nat) : Region := tget Region.reset d.regions r
def updRegion (d : Dev) (r : Nat) (f : Region → Region) : Dev :=
  { d with regions := tupd Region.reset d.regions r f }
def laneOf (d : Dev) (l : Nat) : Lane := tget Lane.reset d.lanes l
def updLane (d : Dev) (l : Nat) (f : Lane → Lane) : Dev := { d with lanes := tupd Lane.reset d.lanes l f }
def linkOf (d : Dev) (l : Nat) : Link := tget Link.reset d.links l
def updLink (d : Dev) (l : Nat) (f : Link → Link) : Dev := { d with links := tupd Link.reset d.links l f }
def seatOf (h : Host') : Seat → SeatSt
  | .manager => h.manager
  | .run => h.run
  | .debug => h.diag
  | .board => h.board
def Host'.updSeat (h : Host') (s : Seat) (f : SeatSt → SeatSt) : Host' :=
  match s with
  | .manager => { h with manager := f h.manager }
  | .run => { h with run := f h.run }
  | .debug => { h with diag := f h.diag }
  | .board => { h with board := f h.board }
def updSeat (d : Dev) (s : Seat) (f : SeatSt → SeatSt) : Dev := { d with host := d.host.updSeat s f }
/-- An environment in which no external driver drives a pin. -/
def PinEnv.none : PinEnv := ⟨0, 0, 0⟩
/-- A denial (R308). -/
def denySeat (s : Seat) (d : Dev) : Dev := updSeat d s fun S => { S with deniedCount := S.deniedCount + 1, denied := true }
/-- A change of the loader's registers and job. -/
def updLd (f : Loader → Loader) (d : Dev) : Dev := { d with ld := f d.ld }
def seatNo : Seat → Nat
  | .manager => 0
  | .run => 1
  | .debug => 2
  | .board => 3
def seatOfNo : Nat → Seat
  | 0 => .manager
  | 1 => .run
  | 2 => .debug
  | _ => .board
/-- Table 5.10: the class of a master; the tile queue controllers are class 0. -/
def masterClass : Master → Nat
  | .seat s => seatNo s + 1
  | .core => 5
  | .loader => 6
  | .trail => 7
/-- Whether the master is one of the seats listed. -/
def byOneOf (m : Master) (l : List Seat) : Bool :=
  match m with
  | .seat s => l.contains s
  | _ => false

/-- Seats that chapters name as writers. -/
abbrev everySeat : List Seat := [.manager, .run, .debug, .board]
abbrev managerSeat : List Seat := [.manager]
abbrev boardSeats : List Seat := [.manager, .board]

/-! ## Geometry (R13, R143, R191) -/

/-- Usable tile positions of a die, ascending: its 132 positions less its spares, and on a ZPE-393 the first 96 of them. -/
def usableTiles (f : Fuse) (die : Nat) : List Nat :=
  let l := ((List.range 132).map (· + 132 * die)).filter fun p => !f.spares.contains p
  if f.zpe393 then l.take 96 else l
/-- The 16 tiles of a physical region (R143). -/
def regionTiles (f : Fuse) (r : Nat) : List Nat := ((usableTiles f (r / 8)).drop (16 * (r % 8))).take 16
/-- USABLE of REGION_STATE. -/
def regionUsable (f : Fuse) (r : Nat) : Bool := decide (r < 32) && (!f.zpe393 || decide (r % 8 < 6))
/-- The physical region of a tile, 32 for a spare or a fused-off tile. -/
def tileRegion (f : Fuse) (p : Nat) : Nat :=
  match (usableTiles f (p / 132)).findIdx? (· = p) with
  | some k => p / 132 * 8 + k / 16
  | none => 32
/-- Usable virtual tiles of the grade (R2). -/
def gradeTiles (f : Fuse) : Nat := if f.zpe393 then 384 else 512
/-- Whether a tile is placed and its region is ACTIVE. -/
def tileActive (d : Dev) (p : Nat) : Bool :=
  (tileOf d p).placed && decide ((regionOf d (tileRegion d.fuse p)).st = .active)
/-- The placed tiles of ACTIVE regions. -/
def activeTiles (d : Dev) : List (Nat × Tile) :=
  ((List.range 528).filter fun p => tileActive d p).map fun p => (p, tileOf d p)
/-- The placed tiles, but for those that wait to take a virtual region over. -/
def placedTiles (d : Dev) : List (Nat × Tile) := d.tiles.filter fun (_, T) => T.placed && !T.moving
/-- The tiles that hold a completed load, those that wait to take a virtual region over included. -/
def loadedTiles (d : Dev) : List (Nat × Tile) := d.tiles.filter fun (_, T) => T.placed && T.loaded
/-- The tile that runs a virtual tile: the one of an ACTIVE region, else any placed one. -/
def tileOfV? (d : Dev) (v : Nat) : Option Nat :=
  match d.tiles.find? (fun (p, T) => T.placed && T.vtile == v && tileActive d p) with
  | some (p, _) => some p
  | none => (d.tiles.find? (fun (_, T) => T.placed && !T.moving && T.vtile == v)).map (·.1)
/-- The die of an HBM address (R191). -/
def hbmDie (a : Nat) : Nat := a / 0x20_0000 % 4

/-! ## HBM contents (R384) -/

/-- The number of the trail engine's write that an address of a former TRAIL region holds. -/
def staleAt (M : MemRegs) (a : Nat) : Option Nat := (M.stale.find? fun x => decide (x.1 ≤ a) && decide (a < x.2.1)).map (·.2.2)
/-- One byte of HBM; one that the trail engine left is open (log entry 6). -/
def hbmGet (M : MemRegs) (a : Nat) : Byte :=
  match staleAt M a with
  | some g => Config.trailByte g a
  | none => mget M.hbm a
/-- `n` bytes of HBM from `a`. -/
def hbmBytes (M : MemRegs) (a : Nat) : Nat → List Byte
  | 0 => []
  | n + 1 => hbmGet M a :: hbmBytes M (a + 1) n
/-- `n` bytes of HBM from `a`, little-endian, as a number. -/
def hbmRead (M : MemRegs) (a : Nat) : Nat → Nat
  | 0 => 0
  | n + 1 => (hbmGet M a).toNat + 256 * hbmRead M (a + 1) n
/-- The ranges that a write of [lo, hi) leaves. -/
def cutStale (lo hi : Nat) (l : List (Nat × Nat × Nat)) : List (Nat × Nat × Nat) :=
  l.flatMap fun (a, b, g) => [(a, min b lo, g), (max a hi, b, g)].filter fun x => decide (x.1 < x.2.1)
/-- The low `n` bytes of `v` to HBM. -/
def hbmPut (M : MemRegs) (a n v : Nat) : MemRegs :=
  { M with hbm := mwrite M.hbm a n v, stale := cutStale a (a + n) M.stale }
/-- Words to HBM, one after another. -/
def hbmPutWords (M : MemRegs) (a : Nat) (ws : List W64) : MemRegs :=
  { M with hbm := mwriteWords M.hbm a ws, stale := cutStale a (a + 8 * ws.length) M.stale }
/-- The enabled ones of `n` bytes to HBM. -/
def hbmPutBe (M : MemRegs) (a n v be : Nat) : MemRegs :=
  { M with hbm := mwriteBe M.hbm a n v be
           stale := (List.range n).foldl (fun l i => if be.testBit i then cutStale (a + i) (a + i + 1) l else l) M.stale }
/-- The same in the module. -/
def putHbm (a n v : Nat) (d : Dev) : Dev := { d with mem := hbmPut d.mem a n v }
def putHbmWords (a : Nat) (ws : List W64) (d : Dev) : Dev := { d with mem := hbmPutWords d.mem a ws }
def putHbmBe (a n v be : Nat) (d : Dev) : Dev := { d with mem := hbmPutBe d.mem a n v be }

/-! ## Open values -/

/-- The next open bit, with the counter moved on. -/
def takeFreeBit (d : Dev) : Bool × Dev := (Config.freeBit d.free, { d with free := d.free + 1 })
/-- The next open word, with the counter moved on. -/
def takeFreeWord (d : Dev) : W64 × Dev := (Config.freeWord d.free, { d with free := d.free + 1 })

/-- An open level for each TIO land. -/
def takeFreePins (d : Dev) : BitVec 256 × Dev :=
  let (a, d) := takeFreeWord d
  let (b, d) := takeFreeWord d
  let (c, d) := takeFreeWord d
  let (e, d) := takeFreeWord d
  (a ++ b ++ c ++ e, d)

/-! ## Interrupt events, trace packets, the diagnostic log -/

/-- The interrupt controller's node (Table 15.1). -/
abbrev irqNode : Nat := 0x404
/-- The drain blocks injection toward a node (R323). -/
def blockedTo (d : Dev) (node : Nat) : Bool := d.sn.draining && bit (tget 0 d.sn.affect (node / 64)) (node % 64)
/-- The node whose block sends the events of a source, by Table 15.1 and the block that holds the source's register; those of a seat's
mailbox come from hub node 10 (log entry 100). -/
def sourceNode (s lane : Nat) : Nat :=
  if 0x400 ≤ s ∧ s < 0x610 then (s - 0x400) / 132 * 256 + (s - 0x400) % 132
  else if 0x100 ≤ s ∧ s ≤ 0x10F ∧ lane < 1024 then lane / 256 * 256 + 120 + lane % 256 / 32
  else if 0x040 ≤ s ∧ s < 0x080 then 0x409
  else match s with
    | 0x016 => 0x408
    | 0x018 | 0x019 | 0x01A => 0x407
    | 0x01C | 0x01D => 0x406
    | 0x030 | 0x031 => 0x40F
    | _ => 0x40A
/-- An event as its block forms it. -/
def newEvent (d : Dev) (s : Nat) (pulse level : Bool) (lane : Nat) : Event :=
  ⟨s, pulse, level, lane, sourceNode s lane, if blockedTo d irqNode then none else some d.sn.current⟩
/-- A pulse source signals one occurrence (R327). -/
def pulse (src : Nat) (d : Dev) : Dev := { d with events := d.events ++ [newEvent d src true true 1024] }

/-- The buffer has no room for a packet of n words: its 64 KiB hold sixteen pages, the open one among them; a funnel that discards
everything is never full (R343, log entry 21). -/
def funnelFull (n : Nat) (d : Dev) : Bool :=
  let t := d.trc
  !t.full && match t.page with
    | none => decide (16 ≤ t.done.length)
    | some l => decide (15 ≤ t.done.length) && decide (512 < l.length + n)
/-- A source forms packets: the funnel is ACTIVE and not ending, and the source is enabled (R337). -/
def traceOn (src : Nat) (d : Dev) : Bool :=
  d.trc.active && d.trc.enable && match src with
    | 0x10 => bit d.trc.srcEn 8
    | 0x11 => bit d.trc.srcEn 9
    | 0x20 => bit d.trc.srcEn 4
    | _ => if src < 4 then bit d.trc.srcEn src else true
/-- A packet waits at the funnel. -/
def putPacket (src kind : Nat) (ws : List W64) (d : Dev) : Dev :=
  { d with trc := { d.trc with waiting := d.trc.waiting ++ [⟨src, kind, ws, d.clk.tsc % 2 ^ 48⟩] } }
/-- A source drops a packet, with its witness of Table 16.1. -/
def dropPacket (src : Nat) (d : Dev) : Dev :=
  if 0x30 ≤ src then
    { d with sn := { d.sn with probes := tupd Probe.reset d.sn.probes (src - 0x30) fun P => { P with dropped := P.dropped + 1 } } }
  else if src < 4 then
    { d with trc := { d.trc with dropped := tupd 0 d.trc.dropped src (· + 1), overflow := tset false d.trc.overflow src true } }
  else { d with trc := { d.trc with dropped := tupd 0 d.trc.dropped (src - 0x0C) (· + 1), lost := tupd 0 d.trc.lost src (· + 1) } }

/-! ### The trace unit of a service core (R340) -/

/-- Words in a core's trace unit. -/
def unitWords (t : Trace) (core : Nat) : Nat :=
  ((t.waiting.filter fun p => p.src = core).map fun p => p.words.length + 1).sum
/-- A unit of 1 KiB has room for n words. -/
def unitRoom (core n : Nat) (d : Dev) : Bool := decide (unitWords d.trc core + n ≤ 128)
/-- Once room returns after a drop, the unit emits CORE_SYNC of cause OVERFLOW with GAP and LOST; the address of the next instruction to
retire is an open value. -/
def overflowSync (core : Nat) (d : Dev) : Dev :=
  if tget false d.trc.overflow core && traceOn core d && unitRoom core 3 d then
    let (a, d) := takeFreeWord d
    putPacket core 3 [a, 0x34] { d with trc := { d.trc with overflow := tset false d.trc.overflow core false } }
  else d

/-- A source forms a packet (R337, R338). The interrupt controller, run control and the probes drop it while the funnel cannot accept;
a core drops it while its trace unit has no room; Basket waits. A full STOP-mode region discards every packet, and none is dropped
(R343). -/
def trace (src kind : Nat) (ws : List W64) (d : Dev) : Dev :=
  if !traceOn src d || d.trc.full then d
  else if src < 4 then
    let d := overflowSync src d
    if tget false d.trc.overflow src || !unitRoom src (ws.length + 1) d then dropPacket src d else putPacket src kind ws d
  else if src ≠ 0x20 && funnelFull (ws.length + 1) d then dropPacket src d
  else putPacket src kind ws d

/-- A run-control record: EVENT, its value, and the committed cycle (Table 16.3). -/
def traceRun (ev v : Nat) (d : Dev) : Dev :=
  trace 0x11 8 [word [(60, 4, ev), (56, 4, v), (0, 48, d.run.committed)]] d

/-- One entry of the diagnostic log (R311). The source ID and, where the owning chapter names no first-fault registers,
words 2 and 3 are open values. -/
def logEntry (code : Nat) (firstFault : Option (W64 × W64)) (d : Dev) : Dev :=
  let (a, d) := takeFreeWord d
  let (b, d) := takeFreeWord d
  let (c, d) := takeFreeWord d
  let (w2, w3) := firstFault.getD (b, c)
  let e : List W64 := [w64 (10 * d.clk.tsc),
    word [(48, 16, code), (40, 8, a.toNat), (0, 40, d.run.committed)], w2, w3]
  let l := d.keep.log ++ [e]
  { d with keep := { d.keep with log := if l.length > 524288 then l.drop 1 else l, logNext := d.keep.logNext + 1 } }

/-- Every reason code other than OK that a table of the spec lists (R7, R8, R167, R189, R367), as (first, how many). -/
def codeRuns : List (Nat × Nat) :=
  [(1, 6), (0x101, 6), (0x201, 15), (0x220, 13), (0x230, 7), (0x240, 3), (0x250, 3), (0x301, 11), (0x320, 6), (0x401, 2), (0x410, 5),
   (0x501, 7), (0x601, 5), (0x701, 12), (0x710, 3), (0x801, 4), (0x810, 6), (0x901, 5), (0x910, 1), (0x920, 2), (0x930, 3),
   (0xA01, 1), (0xA10, 5), (0xA20, 2)]
def reasonCodes : List Nat := codeRuns.flatMap fun (a, n) => List.range' a n
/-- A listed reason code, where the spec says that there is one and not which (log entry 6). -/
def openCode (w : W64) : Nat := reasonCodes.getD (w.toNat % reasonCodes.length) 6
/-- A refusal or loss that has an entry and no code of its own (R311). -/
def logOpen (d : Dev) : Dev :=
  let (w, d) := takeFreeWord d
  logEntry (openCode w) none d

/-! ## Module states and stop requests -/

/-- The encodings of Table 8.1. -/
def stCode : ModState → Nat
  | .boot => 0
  | .idle => 1
  | .loading => 2
  | .loaded => 3
  | .releasing => 4
  | .running => 5
  | .stopping => 6
  | .stopped => 7
  | .rewinding => 8
  | .stranded => 9
  | .faulted => 10

/-- A change of RUN_STATUS.STATE, with its pulse and its trace record; on entering STOPPED, a STOP record with the cause. -/
def enterState (st : ModState) (d : Dev) : Dev :=
  if d.run.st = st then d
  else
    let d := traceRun 1 (stCode st) (pulse 0x017 { d with run := { d.run with st := st } })
    if st = .stopped then traceRun 2 d.run.cause d else d

/-- RUN_STATUS.HOLD (R178). -/
def holdCode (r : Run) : Nat := if r.holdTrail then 1 else if r.holdCap then 2 else 0
def held (d : Dev) : Bool := d.run.holdTrail || d.run.holdCap

/-- A change of the holds, with the trace records of its start and end. -/
def setHold (trail cap : Bool) (d : Dev) : Dev :=
  let old := holdCode d.run
  let d := { d with run := { d.run with holdTrail := trail, holdCap := cap } }
  let new := holdCode d.run
  if old = new then d else traceRun 3 new d

/-- A design cycle is under way: RUNNING outside a hold, or STOPPING before the stop barrier (R164), with nothing left that
keeps step 0 from beginning (R192). -/
def cycleOpen (d : Dev) : Bool :=
  (decide (d.run.st = .running) || decide (d.run.st = .stopping)) && !d.run.draining && !held d && !d.run.baseWait

/-! ## Clocks (R348, R350) -/

/-- The clock of a domain of Table 17.1 runs: outside a stop of every domain, in RUN and on the way in or out of a power state; in SLEEP
by its SLEEP_EN, bit `b` of CLK_GATE. -/
def clockOn (b : Nat) (c : Clk) : Bool := !c.frozen && (decide (c.pw ≤ 2) || (c.pw = 3 && bit c.gate b))
/-- NOC: the service network and the hub blocks. -/
def nocOn (c : Clk) : Bool := clockOn 4 c
/-- SVC: the service cores; gated with NOC. -/
def svcOn (c : Clk) : Bool := clockOn 1 c && nocOn c
/-- KEEP: the Keep store. -/
def keepOn (c : Clk) : Bool := clockOn 10 c

/-- The design cycle in progress (R185). -/
def curCycle (d : Dev) : Nat := d.run.committed + 1

/-- Cause numbers of Table 8.3. -/
abbrev cFORCED := 1
abbrev cREGION_TORN := 2
abbrev cCLOCK_FAIL := 3
abbrev cCONTENTION := 4
abbrev cHORIZON_LATE := 5
abbrev cMEMORY_BOUNDS := 6
abbrev cHALT_IF := 7
abbrev cHALT_N := 8
abbrev cHOST_STOP := 9
abbrev cSTOP_AT := 10
abbrev cCOUNT := 11
abbrev cPARTNER_LOST := 12

/-- The lowest set cause of a set. -/
def lowestCause (set : BitVec 16) : Nat := ((bitsOf 16 set.toNat).head?).getD 0

/-- The physical regions in a state, ascending. -/
def regionsIn (d : Dev) (st : RegionSt) : List Nat := (List.range 32).filter fun r => decide ((regionOf d r).st = st)

/-- The REASON of a stop cause (Table 8.3). -/
def causeReason (d : Dev) (cause : Nat) : Nat :=
  match cause with
  | 1 => if d.run.forcedBy = 2 then 0x0323 else 0x0324
  | 2 => match (regionsIn d .torn).head? with
    | some r => (regionOf d r).tornReason
    | none => 0
  | 3 => 0x0910
  | 4 => 0x0321
  | 5 => 0x0320
  | 6 => 0x0322
  | 10 => if d.run.lateStop then 0x030B else 0
  | 12 => 0x0801
  | _ => 0

/-- The collected causes of a stop (R176). -/
def setCauses (set : BitVec 16) (d : Dev) : Dev :=
  let c := lowestCause set
  let d := { d with run := { d.run with set := set, cause := c } }
  { d with run := { d.run with reason := causeReason d c } }

/-- A stop request is registered (R174). During a hold it takes effect at once, at the barrier already passed (R178); in
RELEASING it waits for the barrier of design cycle 1 (R156); a request after the collection changes nothing (R176). The full
pass of the design cycle that the hold kept back belongs to the next run (R40), and delivery closes (R238). -/
def registerStop (cause : Nat) (d : Dev) : Dev :=
  let add (d : Dev) : Dev := { d with run := { d.run with reqs := setBit d.run.reqs cause true } }
  match d.run.st with
  | .running =>
    if held d then
      let d := setHold false false (add d)
      setCauses d.run.reqs (enterState .stopping { d with
        run := { d.run with draining := true, fullPass := false, fullNext := d.run.fullPass }, bkt := { d.bkt with delivOpen := false } })
    else enterState .stopping (add d)
  | .stopping => if d.run.draining then d else add d
  | .releasing => add d
  | _ => d

/-- A test-control instruction is in effect: loaded, with the module in BOOT or IDLE (R378). -/
def jtagTest (d : Dev) : Bool :=
  (d.run.st = .boot || d.run.st = .idle) && match d.pins.jtag with
  | .extest | .extestPulse | .extestTrain | .highz | .clamp => true
  | _ => false

/-! ## Regions leaving ACTIVE -/

/-- A region leaves ACTIVE: REGION_HELD_CYCLE takes the committed cycle. -/
def leaveActive (st : RegionSt) (r : Nat) (d : Dev) : Dev :=
  updRegion d r fun R =>
    { R with st := st, held := if R.st = .active then d.run.committed else R.held }

/-- A region becomes TORN with a reason; a reason already recorded stays (R165). `first` is what its first-fault registers hold
(R311). -/
def tearRegion (reason r : Nat) (first : Option (W64 × W64)) (d : Dev) : Dev :=
  let R := regionOf d r
  let d := if R.st = .torn then d else logEntry reason first d
  updRegion (leaveActive .torn r d) r fun R' =>
    { R' with tornReason := if R.st = .torn ∨ R.tornPend then R'.tornReason else reason, tornPend := false }

end Sys2Proof.Machine
end

