-- ==== Sys2Proof/Machine/Flags.lean ====
section
/-! DEFINITION. Line conditions of the interrupt sources (Tables 15.9 and 17.7), and `lift`, which runs a command's effect and
reports every line that it changed. -/

namespace Sys2Proof.Machine

/-- The line sources but those of the tiles: ID and condition. -/
def hubLines (d : Dev) : List (Nat × Bool) :=
  [(0x001, d.host.manager.done), (0x002, d.host.run.done), (0x003, d.host.diag.done), (0x004, d.host.board.done),
   (0x010, d.exch.lateBit || d.exch.contBit), (0x011, d.mem.bounds), (0x014, decide (d.run.st = .faulted)),
   (0x015, d.run.stall), (0x016, d.run.holdTrail), (0x01A, d.cap.ended), (0x01B, d.mordant.fail),
   (0x01C, d.bkt.refused || d.bkt.depOrphan || d.bkt.complOrphan || d.bkt.replayMismatch),
   (0x020, d.sys.planDone), (0x021, d.sys.lost), (0x022, d.pair.twinGone || d.pair.twinDetached),
   (0x030, decide (d.sn.dead ≠ [])), (0x040, d.clk.failed), (0x043, d.th.throttling), (0x044, d.th.railFault),
   (0x045, d.th.wearCapped), (0x046, d.clk.stFailed), (0x047, d.th.warn)]

/-- The tiles whose ECC_FATAL line is 1. -/
def tileLines (d : Dev) : List Nat := (d.tiles.filter fun (_, T) => T.eccFatal).map (·.1)

/-- The EVENT packets that take the lines from the old state to the new (R327). -/
def lineEvents (old new : Dev) : List Event :=
  (((hubLines old).zip (hubLines new)).filterMap fun ((i, a), (_, b)) =>
      if a = b then none else some (newEvent new i false b 1024))
    ++ ((tileLines new).filter fun p => !(tileLines old).contains p).map (fun p => newEvent new (0x400 + p) false true 1024)
    ++ ((tileLines old).filter fun p => !(tileLines new).contains p).map fun p => newEvent new (0x400 + p) false false 1024

/-- Adds the changed lines to the events on their way; a module reset, which takes the start-up stages back,
sends none; the exit from DEEP is no reset (R358). -/
def noteLines (old new : Dev) : Dev :=
  if new.clk.stage < old.clk.stage ∧ new.clk.pw = 0 then new else { new with events := new.events ++ lineEvents old new }

/-- The outcome of a command whose effect is `f`, on everything but the queue and the interrupt controller. -/
def lift (f : Dev → Dev) (s : State) : Host.Outcome State Fault Refusal :=
  .next { s with dev := noteLines s.dev (f s.dev) }

/-- The outcome of a command that acts on the interrupt controller too. -/
def liftAll (f : Irq → Dev → Irq × Dev) (s : State) : Host.Outcome State Fault Refusal :=
  let (q, d) := f s.irq s.dev
  .next { s with irq := q, dev := noteLines s.dev d }

end Sys2Proof.Machine
end

