-- ==== Sys2Proof/Machine/Network.lean ====
section
/-! DEFINITION. The way of a packet through the service network (chapter 15): nodes, routes by epoch, probes, and the answers of routers
on the way. -/

namespace Sys2Proof.Machine

/-! ## Nodes and routes (R314, R316, R323) -/

/-- The hub router that die d's bridge joins (R314). -/
def bridgeRouter (die : Nat) : Nat := [0, 3, 12, 15].getD die 0
/-- The next port inside a mesh of `w` columns from index i toward index j: the column first, then the row; none on arrival. -/
def meshPort (w i j : Nat) : Option Nat :=
  if j / w < i / w then some 1
  else if i / w < j / w then some 3
  else if i % w < j % w then some 2
  else if j % w < i % w then some 4
  else none
/-- The reset route of a router toward a destination: 0 local, 1 north, 2 east, 3 south, 4 west, 5 die bridge (R316). -/
def resetRoute (router dest : Nat) : Nat :=
  let die := router / 256
  if die < 4 then
    if dest / 256 = die then (meshPort 12 (router % 256) (dest % 256)).getD 0 else (meshPort 12 (router % 256) 6).getD 5
  else if dest / 256 < 4 then (meshPort 4 (router % 256) (bridgeRouter (dest / 256))).getD 5
  else (meshPort 4 (router % 256) (dest % 256)).getD 0
/-- The key of a route entry. -/
def routeKey (router dest : Nat) (bank : Bool) : Nat := (router * 2048 + dest) * 2 + b2n bank
/-- A route entry. -/
def routeOf (n : Sn) (router dest : Nat) (bank : Bool) : Nat :=
  (tget 0 n.routes (routeKey router dest bank) ^^^ BitVec.ofNat 3 (resetRoute router dest)).toNat
/-- The router at the other end of a port and the port by which a packet enters it; none past an edge of a mesh. -/
def neighbour (router port : Nat) : Option (Nat × Nat) :=
  let hub := decide (1024 ≤ router)
  let w := if hub then 4 else 12
  let h := if hub then 4 else 11
  let i := router % 256
  match port with
  | 1 => if w ≤ i then some (router - w, 3) else none
  | 2 => if i % w + 1 < w then some (router + 1, 4) else none
  | 3 => if i / w + 1 < h then some (router + w, 1) else none
  | 4 => if 0 < i % w then some (router - 1, 2) else none
  | 5 =>
    if hub then ((List.range 4).find? fun d => bridgeRouter d = i).map fun d => (256 * d + 6, 5)
    else if i = 6 then some (1024 + bridgeRouter (router / 256), 5) else none
  | _ => none
/-- The hops of a packet: router, port in, port out. The last one leaves by the local port, unless the routes lead nowhere. -/
def hops (n : Sn) (dest : Nat) (bank : Bool) : Nat → Nat → Nat → List (Nat × Nat × Nat)
  | 0, _, _ => []
  | fuel + 1, router, pin =>
    let out := routeOf n router dest bank
    if out = 0 then [(router, pin, 0)]
    else match neighbour router out with
      | some (r, p) => (router, pin, out) :: hops n dest bank fuel r p
      | none => [(router, pin, out)]
/-- The hops from a source node: a way visits each of the 544 routers at most once, or never ends. -/
def routePath (n : Sn) (src dst : Nat) (bank : Bool) : List (Nat × Nat × Nat) := hops n dst bank 545 src 0
/-- The path ends at its destination. -/
def arrives (n : Sn) (src dst : Nat) (bank : Bool) : Bool :=
  match (routePath n src dst bank).getLast? with
  | some (r, _, p) => r = dst && p = 0
  | none => false

/-! ## Probes (R325) -/

/-- Flits of a packet (R317): the header carries the data of a one-word write. -/
def flitsOf (p : Packet) : Nat :=
  match p.kind with
  | 1 | 2 => if p.lenM1 = 0 then 1 else 1 + (p.lenM1 + 4) / 4
  | 3 => 1 + (p.data.length + 3) / 4
  | _ => 1
/-- The record of Table 15.6. -/
def probeRecord (p : Packet) : W64 :=
  word [(61, 3, p.kind), (59, 2, p.vn), fb 58 p.epoch, (47, 11, p.src), (36, 11, p.dst), (32, 4, p.status), (0, 32, p.addr / 256)]
/-- Whether a probe's filter and place match a packet on its path. -/
def probeMatch (P : Probe) (p : Packet) (path : List (Nat × Nat × Nat)) : Bool :=
  let node := fld P.cfg 61 51
  let port := fld P.cfg 50 48
  bit P.cfg 63 && bit P.cfg (44 + p.vn) && bit P.cfg (39 + p.kind)
    && decide ((fld P.cfg 38 28 ^^^ p.src) &&& fld P.cfg 27 17 = 0)
    && (decide (2 < p.kind) || (decide (P.lo ≤ p.addr) && decide (p.addr ≤ P.hi)))
    && path.any fun (r, i, o) => r = node && (if bit P.cfg 47 then o else i) = port
/-- A packet passes the probes of the router ports on a path. -/
def passPath (p : Packet) (path : List (Nat × Nat × Nat)) (d : Dev) : Dev :=
  (List.range 8).foldl (fun d i =>
    if probeMatch (tget Probe.reset d.sn.probes i) p path then
      let f (P : Probe) : Probe := { P with packets := P.packets + 1, flits := P.flits + w64 (flitsOf p) }
      let d := { d with sn := { d.sn with probes := tupd Probe.reset d.sn.probes i f } }
      if bit (tget Probe.reset d.sn.probes i).cfg 62 then trace (0x30 + i) 8 [probeRecord p] d else d
    else d) d
/-- A packet passes the probes on its way. -/
def passProbes (p : Packet) (d : Dev) : Dev := passPath p (routePath d.sn p.src p.dst p.epoch) d

/-! ## The way of a request (R315, R316, R321, R322) -/

/-- The power domain of a node (Table 17.4, R358). -/
def nodeDomain (node : Nat) : Nat :=
  if node < 1024 then node / 256 else if node = 1024 then 13 else if node < 1028 then 12 else 14
/-- The power domain of a router: those of the hub lie in domain 14 (R358). -/
def routerDomain (router : Nat) : Nat := if router < 1024 then router / 256 else 14
/-- The state of a domain: 0 ON, 1 ABSORBING, 2 OFF, 3 WAKING. -/
def domainState (d : Dev) (dom : Nat) : Nat := ((tget 0 d.sn.domains dom).setWidth 2).toNat
/-- A packet from a node would enter a domain that is not ON (R322); what stays inside a domain is not absorbed. -/
def entersOff (d : Dev) (src dom : Nat) : Bool := nodeDomain src ≠ dom && !((tget 0 d.sn.domains dom).setWidth 2 = 0)
/-- A hop that ends inside its router. -/
abbrev noPort : Nat := 9
/-- The way of a request that the router of its target node answers: it does not leave by the local port (R321). -/
def stopLocal (path : List (Nat × Nat × Nat)) : List (Nat × Nat × Nat) := path.map fun (r, i, o) => (r, i, if o = 0 then noPort else o)
/-- A domain that is not ON answers nothing (R322). -/
def domainOn (d : Dev) (dom : Nat) : Bool := (tget 0 d.sn.domains dom).setWidth 2 = 0
/-- A node isolated by R321. -/
def isDead (d : Dev) (node : Nat) : Bool := bit (tget 0 d.sn.dead (node / 64)) (node % 64)
/-- The way of a packet that a domain absorbs: up to the domain's edge router (R322). -/
def stopEdge (dom : Nat) : List (Nat × Nat × Nat) → List (Nat × Nat × Nat)
  | [] => []
  | (r, i, o) :: rest => if routerDomain r = dom then [(r, i, noPort)] else (r, i, o) :: stopEdge dom rest
/-- The first domain that a packet enters on its way and that is not ON. -/
def edgeOff (d : Dev) (src : Nat) (path : List (Nat × Nat × Nat)) : Option Nat :=
  (path.find? fun (r, _, _) => entersOff d src (routerDomain r)).map fun (r, _, _) => routerDomain r
/-- The router that ends a way. -/
def lastRouter (path : List (Nat × Nat × Nat)) (src : Nat) : Nat := ((path.getLast?).map (·.1)).getD src
/-- The words of a response that has no data of its own: a READ's carries LEN_M1 + 1 words (R317). -/
def blankWords (p : Packet) : List W64 := if p.kind = 0 then List.replicate (p.lenM1 + 1) 0 else []
/-- A response, as it is formed: ADDR is zero (Table 15.3). -/
def responseOf (p : Packet) (status : Nat) (data : List W64) : Packet :=
  { p with kind := 3, vn := 1, src := p.dst, dst := p.src, status := status, addr := 0, data := data }
/-- A response passes the probes on its way back. -/
def passResponse (p : Packet) (router status : Nat) (data : List W64) (d : Dev) : Dev :=
  passPath (responseOf p status data) (routePath d.sn router p.src p.epoch) d
/-- What becomes of a request that its initiator injects: 0 where it reaches its node, a STATUS of Table 15.4 that a router answers (2
DECODE_ERROR at its first router, 4 at the edge of a domain or for the domain `dom` of its target, 3 for a dead node), 19 where the routes
of the request or of its answer lead nowhere. A posted packet has no answer. -/
def travel (p : Packet) (decoded : Bool) (dom : Nat) (d : Dev) : Nat × Dev :=
  let path := routePath d.sn p.src p.dst p.epoch
  let back (n router : Nat) (d : Dev) : Nat × Dev :=
    if p.kind ≤ 1 then (if arrives d.sn router p.src p.epoch then n else 19, passResponse p router n (blankWords p) d) else (n, d)
  if !decoded then back 2 p.src (passPath p [(p.src, 0, noPort)] d)
  else match edgeOff d p.src path with
    | some e => back 4 (lastRouter (stopEdge e path) p.src) (passPath p (stopEdge e path) d)
    | none =>
      if !arrives d.sn p.src p.dst p.epoch then (19, passPath p path d)
      else if entersOff d p.src dom then back 4 p.dst (passPath p (stopLocal path) d)
      else if isDead d p.dst then back 3 p.dst (passPath p (stopLocal path) d)
      else (0, passPath p path d)
/-- A posted write or event that is dropped for a dead node (3) or absorbed by a domain (4) counts (R321, R322). -/
def countDrop (n : Nat) (d : Dev) : Dev :=
  match n with
  | 3 => { d with sn := { d.sn with deadDropped := d.sn.deadDropped + 1 } }
  | 4 => { d with sn := { d.sn with absorbed := d.sn.absorbed + 1 } }
  | _ => d
/-- A READ of `n` words by a hub block, or a WRITE of words, at an address of HBM (log entry 100). -/
def enginePacket (src a : Nat) (write : Bool) (n : Nat) (ws : List W64) (d : Dev) : Packet :=
  ⟨b2n write, 0, d.sn.current, src, hbmDie a * 256, 0, 0, n - 1, 255, a, 0, ws⟩
/-- It goes to its stack's node, and its response comes back (R320, R325): the STATUS, 0 where it was performed. -/
def engineCall (p : Packet) (data : List W64) (d : Dev) : Nat × Dev :=
  let (n, d) := travel p true (nodeDomain p.dst + 4) d
  (n, if n = 0 then passResponse p p.dst 0 data d else d)
/-- A hub block injects no request toward a stack: its own domain is not ON or stands still (R322, R348), a drain affects the node
(R323), or the routes lead nowhere (R316; log entry 100). -/
def engineStalled (src die : Nat) (d : Dev) : Bool :=
  !nocOn d.clk || !domainOn d (nodeDomain src) || blockedTo d (256 * die)
    || !arrives d.sn src (256 * die) d.sn.current || !arrives d.sn (256 * die) src d.sn.current

/-- A posted write of an engine, with its effect where it arrives. -/
def post (p : Packet) (dom : Nat) (f : Dev → Dev) (d : Dev) : Dev :=
  let (n, d) := travel p true dom d
  if n = 0 then f d else countDrop n d

end Sys2Proof.Machine
end

