-- ==== Sys2Proof/Machine/Secded.lean ====
section
/-! DEFINITION. The check codes: the extended Hamming code of step words and commit entries (R52 to R54), CRC-32C (R133). -/

namespace Sys2Proof.Machine

/-- The column code of data bit i (Table 3.2). -/
def colCode (i : Nat) : Nat :=
  if i = 0 then 3 else if i ≤ 3 then i + 4 else if i ≤ 10 then i + 5 else if i ≤ 25 then i + 6
  else if i ≤ 56 then i + 7 else i + 8

/-- The XOR of the codes of the set bits among the low `n` data bits. -/
def chkLow : Nat → Nat → Nat
  | 0, _ => 0
  | n + 1, p => (if p.testBit n then colCode n else 0) ^^^ chkLow n p

/-- The check field of `n` data bits with a `k`-bit syndrome: the low check bits and above them the parity bit. -/
def chkBits (n k p : Nat) : Nat := chkLow n p + b2n (parity n p ^^ parity k (chkLow n p)) <<< k

/-- The stored form of `n` data bits: the data with its check field above. -/
def secEncode (n k p : Nat) : Nat := p + chkBits n k p <<< n

/-- What a fetch makes of a stored word (Table 3.3). -/
inductive Fetched
  | ok (p : Nat)
  | fixed (p : Nat)
  | bad
  deriving DecidableEq, Repr

/-- The check on fetch (R54) of a stored word of `n` data bits with a `k`-bit syndrome. -/
def secFetch (n k w : Nat) : Fetched :=
  let p := w % 2 ^ n
  let syn := chkLow n p ^^^ (w >>> n % 2 ^ k)
  let par := parity (n + k + 1) w
  if par then
    if syn = 0 ∨ (List.range k).any (fun j => 2 ^ j = syn) then .fixed p
    else match (List.range n).find? (fun i => colCode i = syn) with
      | some i => .fixed (p ^^^ 2 ^ i)
      | none => .bad
  else if syn = 0 then .ok p else .bad

/-- The check field of a step word (R52) and its stored form of 88 bits. -/
def stepEncode (p : BitVec 80) : BitVec 88 := BitVec.ofNat 88 (secEncode 80 7 p.toNat)

/-- The stored form of a commit entry: 24 data bits with their check field in [29:24] (R53). -/
def commitEncode (p : BitVec 24) : BitVec 32 := BitVec.ofNat 32 (secEncode 24 5 p.toNat)

/-- Fetch of an 88-bit step word. -/
def stepFetch (w : BitVec 88) : Fetched := secFetch 80 7 w.toNat

/-- Fetch of a commit entry: bits [29:0]. -/
def commitFetch (w : BitVec 32) : Fetched := secFetch 24 5 (w.toNat % 2 ^ 30)

/-- One bit of the reflected CRC-32C. -/
def crcBit (c : BitVec 32) : BitVec 32 :=
  if c.getLsbD 0 then (c >>> 1) ^^^ 0x82F63B78 else c >>> 1

/-- One byte of the reflected CRC-32C. -/
def crcByte (c : BitVec 32) (b : Byte) : BitVec 32 :=
  crcBit (crcBit (crcBit (crcBit (crcBit (crcBit (crcBit (crcBit (c ^^^ b.setWidth 32))))))))

/-- CRC-32C of a byte string (R133). -/
def crc32c (l : List Byte) : Nat := (l.foldl crcByte 0xFFFFFFFF ^^^ 0xFFFFFFFF).toNat

end Sys2Proof.Machine
end

