-- ==== Sys2Proof/Machine/Operands.lean ====
section
/-! DEFINITION. Operand forms: the stores of a tile (Table 6.7), step words and commit entries and their operands, bindings,
queue contexts, and the request that an assembler holds. -/

namespace Sys2Proof.Machine

/-! ## Stores -/

/-- Store kinds (Table 6.7). -/
abbrev kINSTR := 1
abbrev kCOMMIT := 2
abbrev kSTATE := 3
abbrev kBIND := 4
abbrev kQSHAPE := 5
abbrev kBANK := 6
abbrev kTAP := 7

/-- The key of a store of a tile: its kind, and its cluster or 16 for a tile store. -/
def storeKey (kind cluster : Nat) : Nat := kind * 17 + cluster
/-- The 16-byte lines of a store. -/
def storeOf (T : Tile) (kind cluster : Nat) : Tbl (BitVec 128) := tget [] T.stores (storeKey kind cluster)
def lineOf (T : Tile) (kind cluster i : Nat) : BitVec 128 := tget 0 (storeOf T kind cluster) i
/-- The 8-byte word at byte offset 8 × i of a store. -/
def storeWord (T : Tile) (kind cluster i : Nat) : W64 :=
  let l := lineOf T kind cluster (i / 2)
  if i % 2 = 0 then l.setWidth 64 else (l >>> 64).setWidth 64
/-- The non-zero 8-byte words of a store with their indices, ascending. -/
def storeWords (T : Tile) (kind cluster : Nat) : List (Nat × W64) :=
  (storeOf T kind cluster).flatMap fun (k, l) =>
    [(2 * k, l.setWidth 64), (2 * k + 1, (l >>> 64).setWidth 64)].filter fun (_, w) => w ≠ 0
/-- Puts a line into a store. -/
def Tile.putLine (T : Tile) (key i : Nat) (v : BitVec 128) : Tile :=
  { T with stores := tupd [] T.stores key fun s => tset 0 s i v }

/-- The stored 128-bit container of step word s of BP b. -/
def instrLine (T : Tile) (c b s : Nat) : BitVec 128 := lineOf T kINSTR c (b * 1024 + s)
/-- The stored commit entry k of BP b. -/
def commitEntry (T : Tile) (c b k : Nat) : BitVec 32 :=
  (lineOf T kCOMMIT c (b * 64 + k / 4) >>> (32 * (k % 4))).setWidth 32
/-- STATE_INIT of BP b (R23). -/
def stateInit (T : Tile) (c b : Nat) : BitVec 256 :=
  lineOf T kSTATE c (2 * b + 1) ++ lineOf T kSTATE c (2 * b)

/-! ## Step words (Tables 3.1, 2.3, 2.4) -/

/-- The fields of a step word's payload. -/
structure StepW where
  act : Nat
  sel : Nat
  rsv : Nat
  tt : Nat
  opd : Nat
  opc : Nat
  opb : Nat
  opa : Nat
  deriving DecidableEq, Repr

def stepW (p : Nat) : StepW where
  act := nfld p 79 76
  sel := nfld p 75 68
  rsv := nfld p 67 64
  tt := nfld p 63 48
  opd := nfld p 47 36
  opc := nfld p 35 24
  opb := nfld p 23 12
  opa := nfld p 11 0

/-- Actions whose SEL names an import (Table 2.3). -/
def imports (act : Nat) : Bool := act = 1 || act = 2 || act = 5 || act = 6 || act = 7 || act = 8 || act = 10
/-- Chain actions. -/
def isChain (act : Nat) : Bool := act = 7 || act = 8
/-- An operand address in the reserved range (R21). -/
def reservedAddr (a : Nat) : Bool := decide (0x900 ≤ a) && decide (a ≤ 0xFFD)
/-- A SEL value that Table 2.3 and Table 2.4 permit for the action. -/
def selOk (act sel : Nat) : Bool :=
  if act = 0 then sel = 0xFF
  else if imports act then decide (sel ≤ 0xCF) || sel = 0xFF
  else if act = 4 then decide (sel < 128)
  else decide (sel < 64)
/-- The first of checks 2 to 5 of Table 3.11 that a step word fails, 0 for none. -/
def stepCheck (w : StepW) : Nat :=
  if w.rsv ≠ 0 then 2
  else if 11 ≤ w.act then 3
  else if !selOk w.act w.sel then 4
  else if [w.opa, w.opb, w.opc, w.opd].any reservedAddr then 5
  else 0
/-- An address that a commit entry may name (R44). -/
def commitAddrOk (L a : Nat) : Bool :=
  decide (a < L) || (decide (0x400 ≤ a) && decide (a < 0x400 + L)) || (decide (0x800 ≤ a) && decide (a ≤ 0x8FF))
    || a = 0xFFE || a = 0xFFF
/-- The first of checks 2 and 5 that a commit entry of 24 data bits and two top bits fails, 0 for none. -/
def commitCheck (L top p : Nat) : Nat :=
  if top ≠ 0 then 2 else if commitAddrOk L (p % 4096) && commitAddrOk L (p / 4096) then 0 else 5

/-- A step word as a BP uses it: what a fetch answers after R54 and R64. `none` is uncorrectable; the Bool says that the word
was corrected. A word in which the check finds no error is used as stored, and one that breaks a check of Table 3.11 acts as log entry 87
says. -/
def usedStep (l : BitVec 128) : Option (StepW × Bool) :=
  match stepFetch (l.setWidth 88) with
  | .ok p => some (stepW p, false)
  | .fixed p => if stepCheck (stepW p) = 0 then some (stepW p, true) else none
  | .bad => none

/-- A commit entry as a BP uses it: (EN, SRC) and whether it was corrected; as of a step word, only a corrected one is checked (R54, R64). -/
def usedCommit (L : Nat) (e : BitVec 32) : Option (Nat × Nat × Bool) :=
  let top := e.toNat / 2 ^ 30
  match commitFetch e with
  | .ok p => some (p / 4096, p % 4096, false)
  | .fixed p => if commitCheck L top p = 0 then some (p / 4096, p % 4096, true) else none
  | .bad => none

/-- The step words of a cluster at indices below L, as (BP, step, word), in store order; NOP words and uncorrectable ones
are left out. -/
def clusterSteps (T : Tile) (c L : Nat) : List (Nat × Nat × StepW) :=
  (storeOf T kINSTR c).filterMap fun (k, l) =>
    if k % 1024 < L then
      match usedStep l with
      | some (w, _) => if w.act = 0 then none else some (k / 1024, k % 1024, w)
      | none => none
    else none

/-- The value of an operand (Table 2.1); that of a reserved address, which only a word damaged past its check holds, is open (log entry
87). -/
def opVal (B : Bp) (a : Nat) : Bool :=
  if a < 0x400 then B.res.getLsbD a
  else if a < 0x800 then B.imp.getLsbD (a - 0x400)
  else if a < 0x900 then B.sta.getLsbD (a - 0x800)
  else if a = 0xFFE then false
  else if a = 0xFFF then true
  else Config.reservedBit a
/-- Whether an operand is valid. -/
def opValid (B : Bp) (a : Nat) : Bool :=
  if a < 0x400 then B.resValid.getLsbD a
  else if a < 0x800 then B.impValid.getLsbD (a - 0x400)
  else true
/-- The change bit of an operand; in a full pass STA and CON read as changed (R40). -/
def opChg (full : Bool) (B : Bp) (a : Nat) : Bool :=
  if a < 0x400 then B.resChg.getLsbD a
  else if a < 0x800 then B.impChg.getLsbD (a - 0x400)
  else if a < 0x900 then full || B.staChg.getLsbD (a - 0x800)
  else full

/-! ## Bindings (Table 6.8, R139) -/

/-- Outbound entry p of a cluster: KIND and PIN; a port beyond 63 is bound to nothing (log entry 87). -/
def outEntry (T : Tile) (c p : Nat) : Nat × Nat :=
  let w := if p < 64 then storeWord T kBIND c p else 0
  (fld w 63 62, fld w 7 0)
/-- Inbound entry p of a cluster. Bits that Table 6.8 marks zero are not read, nor is SC held to L: no rule refuses such an entry (log entry 87). -/
def inEntry (T : Tile) (c p : Nat) : W64 := storeWord T kBIND c (64 + p)
/-- Fields of an inbound entry: bound, remote, declared send step, lane, channel. -/
def inBound (w : W64) : Bool := bit w 63
def inRemote (w : W64) : Bool := bit w 62
def inSc (w : W64) : Nat := fld w 57 48
def inLane (w : W64) : Nat := fld w 41 32
def inCh (w : W64) : Nat := fld w 18 0
/-- Pin-input entry n of a cluster: the pin, if bound. -/
def pinEntry (T : Tile) (c n : Nat) : Option Nat :=
  let w := storeWord T kBIND c (128 + n)
  if bit w 63 then some (fld w 7 0) else none
/-- CLUSTER_QBIND and CLUSTER_SHAPE. -/
def qbind (T : Tile) (c : Nat) : W64 := storeWord T kBIND c 0x90
def shape (T : Tile) (c : Nat) : W64 := storeWord T kBIND c 0x91
/-- The inbound ports of a tile that are bound: (cluster, port, entry). -/
def inPorts (T : Tile) : List (Nat × Nat × W64) :=
  (List.range 16).flatMap fun c => (storeWords T kBIND c).filterMap fun (i, w) =>
    if 64 ≤ i && i < 128 && inBound w then some (c, i - 64, w) else none
/-- The outbound ports of a tile that are bound: (cluster, port, KIND, PIN). -/
def outPorts (T : Tile) : List (Nat × Nat × Nat × Nat) :=
  (List.range 16).flatMap fun c => (storeWords T kBIND c).filterMap fun (i, w) =>
    if i < 64 && fld w 63 62 ≠ 0 then some (c, i, fld w 63 62, fld w 7 0) else none
/-- The valid egress entries of a tile: (lane, link channel number, source port within the tile). -/
def egressOf (T : Tile) : List (Nat × Nat × Nat) :=
  (storeWords T kBIND 16).filterMap fun (_, w) =>
    if bit w 63 then some (fld w 57 48, fld w 47 32, fld w 9 0) else none
/-- The channel number of an outbound port (R65). -/
def channelNo (v c p : Nat) : Nat := v * 1024 + c * 64 + p
/-- The horizon key of a bound inbound entry (Table 4.1). -/
def keyOf (w : W64) : Nat := if inRemote w then 0x2000 + inLane w else inCh w / 64
/-- The steps at which a cluster's SEND names each outbound port: (port, step). -/
def sends (T : Tile) (c L : Nat) : List (Nat × Nat) :=
  (clusterSteps T c L).filterMap fun (_, s, w) => if w.act = 3 then some (w.sel, s) else none

/-! ## TAP_TABLE (Table 10.2) -/

/-- Valid TAP_TABLE entries of a tile: (entry, word). -/
def tapsOf (T : Tile) : List (Nat × W64) := (storeWords T kTAP 16).filter fun (_, w) => bit w 63

/-! ## Queue contexts (Table 5.13) and requests (R100, R101) -/

structure CtxCfg where
  valid : Bool
  writable : Bool
  wsize : Nat
  depth : Nat
  kind : Nat
  base : Nat
  words : Nat
  deriving DecidableEq, Repr

/-- The configuration of context q, from the QUEUE_SHAPE store. -/
def ctxCfg (T : Tile) (q : Nat) : CtxCfg :=
  let w := storeWord T kQSHAPE 16 (4 * q)
  { valid := bit w 19, writable := bit w 18, wsize := 2 ^ fld w 17 16, depth := fld w 12 6, kind := fld w 2 0
    base := fld (storeWord T kQSHAPE 16 (4 * q + 1)) 39 0, words := fld (storeWord T kQSHAPE 16 (4 * q + 2)) 37 0 }
/-- The configured contexts of a tile, ascending. -/
def ctxsOf (T : Tile) : List (Nat × CtxCfg) :=
  (storeWords T kQSHAPE 16).filterMap fun (i, w) => if i % 4 = 0 && bit w 19 then some (i / 4, ctxCfg T (i / 4)) else none
/-- Kinds of Table 5.2. -/
abbrev qBANK := 0
abbrev qHBM := 1
abbrev qBIN := 2
abbrev qBDONE := 3
abbrev qHSIN := 4
abbrev qHSOUT := 5
/-- A take kind. -/
def isTake (kind : Nat) : Bool := kind = 2 || kind = 5
/-- Operations that a kind accepts (Table 5.2). -/
def opAccepted (kind op : Nat) : Bool :=
  if kind = 0 || kind = 1 then true else if isTake kind then op = 0 else op = 1 || op = 2
/-- Operations that respond (Table 5.4). -/
def responds (op : Nat) : Bool := op ≠ 1
/-- A field of a request: assembler bits [POS + W − 1 : POS]. -/
def asmField (asm : BitVec 128) (pos w : Nat) : Nat := asm.toNat >>> pos % 2 ^ w

structure Req where
  ctx : Nat
  op : Nat
  addr : Nat
  data : Nat
  be : Nat
  deriving DecidableEq, Repr

/-- The request that an assembler holds (R100, R101). -/
def request (T : Tile) (c : Nat) (asm : BitVec 128) : Req :=
  let p := shape T c
  let q := 32 * c + fld (qbind T c) 4 0 + asmField asm (fld p 55 49) (fld p 58 56)
  { ctx := q
    op := if fld p 8 7 = 0 then fld p 10 9 else asmField asm (fld p 6 0) (fld p 8 7)
    addr := asmField asm (fld p 17 11) (fld p 23 18)
    data := asmField asm (fld p 30 24) (fld p 37 31)
    be := if fld p 48 45 = 0 then 0xFF else asmField asm (fld p 44 38) (fld p 48 45) }

/-- The occupancy of a context (R107). -/
def occupancy (kind : Nat) (X : Ctx) : Nat :=
  if isTake kind then X.items.length + match X.openPkt with
    | some l => l.length + 1
    | none => 0
  else X.ents.length
/-- The banks of a tile that loaded BANK contexts map (R120). -/
def mappedBanks (T : Tile) : List Nat :=
  (List.range 16).filter fun b => (ctxsOf T).any fun (_, g) =>
    g.kind = 0 && decide (g.base / 0x4_0000 ≤ b) && decide (b ≤ (g.base + g.words * g.wsize - 1) / 0x4_0000)
/-- The banks that one request of a BANK context touches. -/
def wordBank (g : CtxCfg) (a : Nat) : Nat := (g.base + a * g.wsize) / 0x4_0000 % 16

end Sys2Proof.Machine
end

