-- ==== Sys2Proof/Machine/Capture.lean ====
section
/-! DEFINITION. Triggers and hampers (chapter 10): trigger nets, the sequencer, fold windows, the life of a hamper, sessions. -/

namespace Sys2Proof.Machine

/-! ## HBM regions (R92) -/

/-- The enabled entries of the HBM region table: (entry, kind, base, size). -/
def hbmEntries (d : Dev) : List (Nat × Nat × Nat × Nat) :=
  (List.range 16).filterMap fun r =>
    let s := tget 0 d.mem.regionSize r
    if bit s 63 then some (r, fld s 62 60, fld (tget 0 d.mem.regionBase r) 37 21 * 2 ^ 21, fld s 37 21 * 2 ^ 21) else none
/-- The enabled entries of a kind. -/
def hbmKind (d : Dev) (k : Nat) : List (Nat × Nat × Nat × Nat) := (hbmEntries d).filter fun e => e.2.1 = k
/-- The base and size of the lowest enabled entry of a kind. -/
def hbmRegion? (d : Dev) (k : Nat) : Option (Nat × Nat) := (hbmKind d k).head?.map fun e => (e.2.2.1, e.2.2.2)

/-! ## Settings of a session, as they act (Table 10.11) -/

def capP (c : Cap) : Nat := min c.preP (2 ^ 24)
def capQ (c : Cap) : Nat := min c.postQ (2 ^ 24)
def capF (c : Cap) : Nat := min c.f 16
def capK (c : Cap) : Nat := max (min c.k 24) (capF c)
def capRearm (c : Cap) : Nat := if c.rearm = 0 then 1 else c.rearm
/-- B_eff (R221). -/
def capBudget (c : Cap) (L : Nat) : Nat :=
  let m := min (2 ^ 20) (75 * L / 2 * 2 ^ capF c)
  if c.budget = 0 then m else min c.budget m
/-- The slot size S (R216). -/
def capSlot (size hampers : Nat) : Nat := size / 4 / hampers / 65536 * 65536
/-- Words of the pre-ring and of the post area. -/
def ringWords (s : Nat) : Nat := (s / 2 - 64) / 4
def postWords (s : Nat) : Nat := (s / 2 - 32) / 4

/-- The HBM address of byte x of the share of a die: the 2 MiB blocks of the region that lie on it, ascending (R216). -/
def shareAddr (base die x : Nat) : Nat :=
  let first := (die + 4 - base / 0x20_0000 % 4) % 4
  base + (first + 4 * (x / 0x20_0000)) * 0x20_0000 + x % 0x20_0000

/-- A record word of the capture engine, as a posted write of 4 bytes to its stack's node (R320, log entry 100). -/
def capPacket (a : Nat) (w : BitVec 32) (d : Dev) : Packet :=
  ⟨2, 2, d.sn.current, 0x407, hbmDie a * 256, 0, 0, 0, if a % 8 = 0 then 0x0F else 0xF0, a / 8 * 8, 0
    , [w.setWidth 64 <<< (8 * (a % 8))]⟩
/-- It goes to HBM. -/
def capPost (a : Nat) (w : BitVec 32) (d : Dev) : Dev :=
  post (capPacket a w d) (4 + hbmDie a) (putHbm a 4 w.toNat) d
/-- A word to slot byte x of hamper h of a die's share; it is held while the next slot is being set up (R220), while a drain affects its
stack (R323), and behind earlier words that are held. -/
def capPut (die h x : Nat) (w : BitVec 32) (d : Dev) : Dev :=
  match hbmRegion? d 2 with
  | none => d
  | some (base, _) =>
    let a := shareAddr base die (h * d.cap.slot + x)
    let d := { d with cap := { d.cap with records := d.cap.records + 1 } }
    if d.cap.setupDue || !d.cap.heldWrites.isEmpty || blockedTo d (hbmDie a * 256) then
      { d with cap := { d.cap with heldWrites := d.cap.heldWrites ++ [(a, w)] } }
    else capPost a w d

def dieOf (d : Dev) (die : Nat) : CapDie := tget CapDie.reset d.cap.dies die
def updDie (d : Dev) (die : Nat) (f : CapDie → CapDie) : Dev :=
  { d with cap := { d.cap with dies := tupd CapDie.reset d.cap.dies die f } }

/-- Held words go to HBM in their order, as far as no drain affects their stacks. -/
def releaseWords : List (Nat × BitVec 32) → Dev → Dev
  | [], d => { d with cap := { d.cap with heldWrites := [] } }
  | (a, w) :: rest, d =>
    if blockedTo d (hbmDie a * 256) then { d with cap := { d.cap with heldWrites := (a, w) :: rest } }
    else releaseWords rest (capPost a w d)
/-- The held records reach HBM once the slot is set up (R220). -/
def flushHeld (d : Dev) : Dev := releaseWords d.cap.heldWrites { d with cap := { d.cap with setupDue := false } }
/-- Those that a drain held go on after it. -/
def capRetry (d : Dev) : Dev := if d.cap.setupDue then d else releaseWords d.cap.heldWrites d

/-! ## Taps -/

def tapBit (t : Tbl W64) (i : Nat) : Bool := bit (tget 0 t (i / 64)) (i % 64)
/-- The indices of word w of CAP_TAP_EN and CAP_TAP_FOLD that have a valid entry: the other bits read 0 (R210, R225). -/
def tapMask (d : Dev) (w : Nat) : W64 :=
  (placedTiles d).foldl (fun m (_, T) =>
    if T.vtile = w / 4 then (tapsOf T).foldl (fun m (e, _) => if e / 64 = w % 4 then setBit m (e % 64) true else m) m else m) 0
/-- The taps of the tiles placed on a die: (index, FOLDABLE), those enabled in CAP_TAP_EN. -/
def dieTaps (d : Dev) (die : Nat) : List (Nat × Bool) :=
  (placedTiles d).flatMap fun (p, T) =>
    if p / 132 = die then (tapsOf T).filterMap fun (e, _) =>
      let i := T.vtile * 256 + e
      if tapBit d.cap.tapEn i then some (i, tapBit d.cap.tapFold i) else none
    else []
/-- The value and change bit that a tap presents. -/
def tapValue (T : Tile) (w : W64) : Bool × Bool :=
  let B := bpOf (clusterOf T (fld w 19 16)) (fld w 15 10)
  (B.res.getLsbD (fld w 9 0), B.resValid.getLsbD (fld w 9 0) && B.resChg.getLsbD (fld w 9 0))
def sortByKey {α : Type} (l : List (Nat × α)) : List (Nat × α) := sortBy (·.1) l
/-- The change records of a die in the design cycle under way, ascending tap index (R211, R212). -/
def dieChanges (d : Dev) (die : Nat) : List (Nat × Bool) :=
  sortByKey <| (activeTiles d).flatMap fun (p, T) =>
    if p / 132 = die then (tapsOf T).filterMap fun (e, w) =>
      let (v, c) := tapValue T w
      if c && tapBit d.cap.tapEn (T.vtile * 256 + e) then some (T.vtile * 256 + e, v) else none
    else []
/-- The values of a tile's taps, by entry. -/
def tapBits (T : Tile) : BitVec 256 := (tapsOf T).foldl (fun acc (e, w) => setBit acc e (tapValue T w).1) 0
/-- The keyframe of a die: per tile of an ACTIVE region with an enabled tap, its 256 tap values at the end of the last design
cycle (R212, R214). -/
def dieKeyframe (d : Dev) (die : Nat) : List (Nat × BitVec 256) :=
  sortByKey <| (activeTiles d).filterMap fun (p, T) =>
    let l := (tapsOf T).filter fun (e, _) => tapBit d.cap.tapEn (T.vtile * 256 + e)
    if p / 132 = die && !l.isEmpty then
      some (T.vtile, l.foldl (fun acc (e, _) => setBit acc e (T.taps.getLsbD e)) (0 : BitVec 256))
    else none
/-- The taps of the ACTIVE regions at the end of a design cycle. -/
def holdTaps (d : Dev) : Dev :=
  (activeTiles d).foldl (fun d (p, _) => updTile d p fun T => { T with taps := tapBits T }) d

/-- What the end of design cycle n shows, for a REWIND to it. -/
def shownNow (n : Nat) (d : Dev) : Shown := ⟨n, d.cap.nets, (placedTiles d).map fun (p, T) => (p, T.taps)⟩
def keepShown (n : Nat) (d : Dev) : Dev :=
  if d.trail.empty then d else { d with trail := { d.trail with shown := d.trail.shown ++ [shownNow n d] } }
/-- After a REWIND to t the nets and taps are those of the end of t, in repaired tiles too (R207, R212; log entry 94). -/
def showEnd (t : Nat) (d : Dev) : Dev :=
  match findLast? (fun x : Shown => decide (x.cycle = t)) d.trail.shown with
  | none => d
  | some x =>
    (placedTiles d).foldl (fun d (p, _) => updTile d p fun T => { T with taps := tget 0 x.taps p })
      { d with cap := { d.cap with nets := x.nets }
               trail := { d.trail with shown := d.trail.shown.filter fun y => decide (y.cycle ≤ t) } }

/-! ## Record words (Table 10.3) -/

def wCycle (n : Nat) : BitVec 32 := BitVec.ofNat 32 (0x4000_0000 + n % 2 ^ 30)
def wChange (v : Bool) (i delta : Nat) : BitVec 32 := BitVec.ofNat 32 (b2n v * 2 ^ 29 + i % 2 ^ 17 * 2 ^ 12 + delta % 4096)
def wKey (v : Nat) : BitVec 32 := BitVec.ofNat 32 (0x8000_0000 + v * 256 * 4096 + 8)
def wFold (n delta : Nat) : BitVec 32 := BitVec.ofNat 32 (0xA000_0000 + n % 2 ^ 17 * 2 ^ 12 + delta % 4096)

/-- The words of a keyframe after its CYCLE word. -/
def keyWords (k : List (Nat × BitVec 256)) : List (BitVec 32) :=
  k.flatMap fun (v, bits) => wKey v :: (List.range 8).map fun j => (bits >>> (32 * j)).setWidth 32

/-- Whether a CYCLE word must precede the first record of n (R213). -/
def needCycle (last : Option Nat) (n : Nat) : Bool :=
  match last with
  | none => true
  | some c => decide (n - c > 4095)

/-- The words of one design cycle's records: words, the offset of its keyframe among them, and the cycle of the last CYCLE
word after them. -/
def cycleWords (last : Option Nat) (c : CapCycle) : List (BitVec 32) × Option Nat × Option Nat :=
  let (ws, last) :=
    if c.changes.isEmpty then ([], last)
    else
      let pre := if needCycle last c.cycle then [wCycle c.cycle] else []
      let base := if needCycle last c.cycle then c.cycle else last.getD c.cycle
      (pre ++ c.changes.map (fun (i, v) => wChange v i (c.cycle - base)), some base)
  match c.key with
  | none => (ws, none, last)
  | some k => (ws ++ wCycle c.cycle :: keyWords k, some ws.length, some c.cycle)

/-- The words of a window: words, keyframes as (cycle, offset), the cycle of the last CYCLE word. -/
def windowWords (last : Option Nat) : List CapCycle → List (BitVec 32) × List (Nat × Nat) × Option Nat
  | [] => ([], [], last)
  | c :: r =>
    let (ws, k, last) := cycleWords last c
    let (ws', ks, last) := windowWords last r
    (ws ++ ws', (k.map fun o => (c.cycle, o)).toList ++ ks.map (fun (a, o) => (a, o + ws.length)), last)

/-- The number of changes of a tap in a window. -/
def tapCount (w : List CapCycle) (i : Nat) : Nat := (w.map fun c => (c.changes.filter (·.1 = i)).length).sum

/-- The folded form of a window: each foldable tap keeps its first and last change (R222). The list runs with the number of
changes of each tap seen before. -/
def foldCycles (fold : Nat → Bool) (whole : List CapCycle) : List CapCycle → List CapCycle → List CapCycle
  | _, [] => []
  | seen, c :: r =>
    { c with changes := c.changes.filter fun (i, _) =>
        !fold i || tapCount seen i = 0 || tapCount seen i + 1 = tapCount whole i } :: foldCycles fold whole (seen ++ [c]) r

/-- The foldable taps that a fold has folded: those of which it drops a record (log entry 94). -/
def foldedTaps (fold : Nat → Bool) (whole : List CapCycle) : Nat :=
  (((whole.flatMap (·.changes)).map (·.1)).eraseDups.filter fun i => fold i && decide (2 < tapCount whole i)).length

/-- A window in the form in which it is written, with whether it was folded. `first` is the window's first cycle. -/
def windowForm (fold : Nat → Bool) (budget first : Nat) (last : Option Nat) (w : List CapCycle) :
    List (BitVec 32) × List (Nat × Nat) × Option Nat × Bool :=
  let (ws, ks, l) := windowWords last w
  if ws.length ≤ budget then (ws, ks, l, false)
  else
    let pre := if needCycle last first then [wCycle first] else []
    let base := if needCycle last first then first else last.getD first
    let (ws, ks, l) := windowWords (some base) (foldCycles fold w [] w)
    (pre ++ wFold (foldedTaps fold w) (first - base) :: ws, ks.map (fun (a, o) => (a, o + pre.length + 1)), l, true)

/-! ## Writing windows -/

/-- Writes words into the pre-ring of hamper h from absolute position `pos`. -/
def putRing (die h size : Nat) : Nat → List (BitVec 32) → Dev → Dev
  | _, [], d => d
  | pos, w :: r, d => putRing die h size (pos + 1) r (capPut die h (64 + 4 * (pos % size)) w d)

/-- Writes words at consecutive slot bytes. -/
def putWords (die h : Nat) : Nat → List (BitVec 32) → Dev → Dev
  | _, [], d => d
  | x, w :: r, d => putWords die h (x + 4) r (capPut die h x w d)

/-- Drops the oldest words of a ring up to the next keyframe until `need` words fit; where the ring holds no other, all of them are
older than the next keyframe (R217). The fuel is the number of keyframes held. -/
def dropRing (size need : Nat) : Nat → CapDie → CapDie
  | 0, D => D
  | k + 1, D =>
    if D.words.length + need ≤ size then D
    else match (D.keys.filter fun (_, pos) => D.start < pos).head? with
      | some (_, pos) =>
        dropRing size need k { D with start := pos, words := D.words.drop (pos - D.start),
                                      keys := D.keys.filter (fun (_, q) => pos ≤ q),
                                      folds := D.folds.filter (fun q => pos ≤ q) }
      | none => { D with start := D.start + D.words.length, words := [], keys := [], folds := [] }

/-- The words of a window of `n` words that an emptied ring does not take: those before its first keyframe, so that the held
content begins with one (R217; log entry 94). -/
def ringCut (D : CapDie) (ks : List (Nat × Nat)) (n : Nat) : Nat :=
  if D.words.isEmpty then (ks.head?.map (·.2)).getD n else 0
/-- A fold window of a die ends: it is written into the ring or, in POST, into the post area (R217, R219, R222). -/
def endWindow (die : Nat) (d : Dev) : Dev :=
  let D := dieOf d die
  if D.window.isEmpty then d
  else
    let c := d.cap
    let (ws, ks, last, folded) :=
      windowForm (tapBit c.tapFold) (capBudget c d.image.l) c.winStart D.lastCycleWord D.window
    let d := if folded then
        { d with cap := { c with foldedCount := c.foldedCount + 1, folded := true } }
      else d
    if c.phase = .post then
      if D.postFull || decide (postWords c.slot < D.post.length + ws.length) then
        updDie d die fun D => { D with window := [], postFull := true, postFolded := D.postFolded || folded }
      else
        let d := putWords die c.hamper (c.slot / 2 + 4 * D.post.length) ws d
        updDie d die fun D =>
          { D with window := [], post := D.post ++ ws, lastCycleWord := last, postFolded := D.postFolded || folded
                   foldedWindows := D.foldedWindows + b2n folded
                   lastPost := match D.window.getLast? with
                     | some x => x.cycle + 1
                     | none => D.lastPost }
    else
      let size := ringWords c.slot
      let D := dropRing size ws.length (D.keys.length + 1) D
      let cut := ringCut D ks ws.length
      let ws := ws.drop cut
      let pos := D.start + D.words.length
      let d := putRing die c.hamper size pos ws d
      updDie d die fun D' =>
        { D' with window := [], start := D.start, words := D.words ++ ws, lastCycleWord := last
                  keys := D.keys ++ ks.map (fun (a, o) => (a, pos + o - cut))
                  folds := if folded ∧ ws ≠ [] then D.folds ++ [pos + ws.length - 1] else D.folds }

/-- The same for the four dies; the next window starts at `next`. -/
def endWindows (next : Nat) (d : Dev) : Dev :=
  let d := [0, 1, 2, 3].foldl (fun d die => endWindow die d) d
  { d with cap := { d.cap with winStart := next } }

/-! ## Headers and trailers (Tables 10.4, 10.5) -/

def lo32 (v : Nat) : BitVec 32 := BitVec.ofNat 32 v
def hi32 (v : Nat) : BitVec 32 := BitVec.ofNat 32 (v / 2 ^ 32)
def sat (n v : Nat) : Nat := min v (2 ^ n - 1)

/-- Header word 1 of a die. -/
def flagWord (cut : Bool) (D : CapDie) (die h : Nat) : BitVec 32 :=
  lo32 (b2n cut * 2 ^ 28 + b2n D.postFull * 2 ^ 27 + b2n D.postFolded * 2 ^ 26 + b2n D.preFolded * 2 ^ 25
    + b2n D.shortPre * 2 ^ 24 + die * 2 ^ 16 + h)

/-- A trigger at barrier T in RING selects the die's pre part and writes its header (R218). -/
def headerDie (T st entry die : Nat) (d : Dev) : Dev :=
  let c := d.cap
  let D := dieOf d die
  let held := match findLast? (fun (k : Nat × Nat) => k.1 + capP c ≤ T) D.keys with
    | some k => (k, false)
    | none => ((D.keys.head?).getD (T, D.start), true)
  let (K, pos) := held.1
  let d := updDie d die fun D =>
    { D with shortPre := held.2, preFolded := D.folds.any (fun q => pos ≤ q),
             foldedWindows := (D.folds.filter fun q => pos ≤ q).length }
  let flags := flagWord false (dieOf d die) die c.hamper
  let wall := 10 * d.clk.tsc
  let ws := [0xC000_000F, flags, lo32 T, hi32 T, lo32 wall, hi32 wall, lo32 ((T - K) % 2 ^ 25), lo32 (capQ c),
    lo32 (sat 16 c.hdrLostRearm * 65536 + sat 16 c.hdrLostPost), lo32 (capF c * 65536 + capK c * 256 + entry * 16 + st),
    lo32 c.nets.toNat, hi32 c.nets.toNat, lo32 d.image.buildId.toNat, hi32 d.image.buildId.toNat,
    lo32 (64 + 4 * (pos % ringWords c.slot)), lo32 (D.start + D.words.length - pos)]
  updDie (putWords die c.hamper 0 ws d) die fun D =>
    { D with lastCycleWord := none, post := [], lastPost := 0 }

/-- The trailer of a die; with no record in the post area its LAST_CYCLE is an open value. -/
def trailerDie (cut : Bool) (die : Nat) (d : Dev) : Dev :=
  let D := dieOf d die
  let (last, d) := if D.lastPost = 0 then
      let (w, d) := takeFreeWord d
      (w.toNat, d)
    else (D.lastPost - 1, d)
  putWords die d.cap.hamper (d.cap.slot - 32)
    [0xE000_0007, flagWord cut D die d.cap.hamper, lo32 last, hi32 last, lo32 D.post.length, lo32 D.foldedWindows, 0, 0] d

/-- The session ends (R220, R223): ENDED, with its line; `stopSeq` ends the sequencer too. -/
def endSession (stopSeq : Bool) (d : Dev) : Dev :=
  { d with cap := { d.cap with armed := false, arming := false, ended := true, phase := .none, dies := []
                               seqOn := d.cap.seqOn && !stopSeq } }

/-- The hamper closes (R219); the next one's RING starts, or the session ends. Its header stays as the trigger wrote it: the final
POST_FOLDED, POST_FULL and CUT are in the trailer (log entry 13). -/
def closeHamper (cut : Bool) (d : Dev) : Dev :=
  let d := flushHeld d
  let d := { d with cap := { d.cap with setupDue := !cut } }
  let d := [0, 1, 2, 3].foldl (fun d die => trailerDie cut die d) d
  let h := d.cap.hamper
  let d := pulse 0x019 { d with cap := { d.cap with closed := d.cap.closed + 1, dies := [], hamper := h + 1 } }
  if h = d.cap.hampersM1 then endSession false d
  else { d with cap := { d.cap with phase := .rearm } }

/-! ## The sequencer (R208) -/

def seqCond (c : Cap) (e : Nat) : Bool :=
  let w := tget 0 c.seqEntry e
  let m := tget 0 c.seqMask e
  let nets := match fld w 62 61 with
    | 0 => true
    | 1 => decide (c.nets &&& m ≠ 0)
    | 2 => decide (c.nets &&& m = m)
    | _ => decide (c.nets &&& m = 0)
  let cnt := tget 0 c.seqCount (fld w 59 57)
  let cmp := tget 0 c.seqCmp (fld w 59 57)
  let count := match fld w 56 55 with
    | 0 => decide (cmp ≤ cnt)
    | 1 => decide (cnt = cmp)
    | 2 => decide (cnt < cmp)
    | _ => false
  bit w 63 && nets && (!bit w 60 || count)

/-- The counters after CLEAR and then INC, saturating at 2^48 − 1. -/
def seqCounters (w : W64) (t : Tbl Nat) : Tbl Nat :=
  (List.range 8).foldl (fun t i =>
    let v := if bit w (41 + i) then 0 else tget 0 t i
    tset 0 t i (if bit w (33 + i) then min (v + 1) (2 ^ 48 - 1) else v)) t

/-- One evaluation: the state after it, with the entry word if its TRIGGER bit asks for a trigger, as (state, entry). -/
def seqEval (d : Dev) : Dev × Option (Nat × Nat) :=
  let c := d.cap
  match (List.range 4).find? fun e => seqCond c (4 * c.seqState + e) with
  | none => ({ d with cap := { c with seqTaken := false } }, none)
  | some e =>
    let w := tget 0 c.seqEntry (4 * c.seqState + e)
    let d := { d with cap := { c with seqCount := seqCounters w c.seqCount, seqState := fld w 54 51, seqTaken := true
                                      seqLast := e } }
    (if bit w 49 then pulse 0x018 d else d, if bit w 50 then some (c.seqState, e) else none)

/-! ## What a barrier does to a session -/

/-- The module's part of the nets (R42, R207): the OR of the RES values of every TRIG step that names each net. -/
def trigNets (d : Dev) : W64 :=
  (placedTiles d).foldl (fun acc (_, T) => (List.range 16).foldl (fun acc c =>
    (clusterSteps T c d.image.l).foldl (fun acc (b, s, w) =>
      if w.act = 9 && (bpOf (clusterOf T c) b).res.getLsbD s then setBit acc w.sel true else acc) acc) acc) 0

/-- The session starts with arm cycle a: hamper 0 in RING with the keyframe of a (R215), in a window of its own where a + 1 opens
an aligned one (R222). -/
def startSession (a : Nat) (d : Dev) : Dev :=
  let d := { d with cap := { d.cap with arming := false, armCycle := a, phase := .ring, hamper := 0, winStart := a, dies := [] } }
  let d := [0, 1, 2, 3].foldl (fun d die =>
    updDie d die fun D => { D with window := [⟨a, [], some (dieKeyframe d die)⟩] }) d
  if (a + 1) % 2 ^ capF d.cap = 0 then endWindows (a + 1) d else d

/-- A keyframe is due at n: a full pass, or a multiple of 2^K (R214). -/
def keyDue (d : Dev) (full : Bool) (n : Nat) : Bool := full || decide (n % 2 ^ capK d.cap = 0)

/-- The records of n join each die's open window (R211, R222); a full pass opens a new window. -/
def takeRecords (full : Bool) (n : Nat) (d : Dev) : Dev :=
  let d := if full then endWindows n d else d
  [0, 1, 2, 3].foldl (fun d die =>
    let ch := if full then [] else dieChanges d die
    let key := if keyDue d full n then some (dieKeyframe d die) else none
    if ch.isEmpty && key.isNone then d
    else updDie d die fun D => { D with window := D.window ++ [⟨n, ch, key⟩] }) d

/-- The trigger of the barrier of n, if any, in the phase the hamper is in (R218, R220). The 32-bit fields of CAP_LOST saturate (log
entry 13). -/
def takeTrigger (n : Nat) (tr : Option (Nat × Nat)) (d : Dev) : Dev :=
  match tr with
  | none => d
  | some (st, e) =>
    let c := d.cap
    match c.phase with
    | .ring =>
      let d := endWindows (n + 1) d
      let d := [0, 1, 2, 3].foldl (fun d die => headerDie n st e die d) d
      { d with cap := { d.cap with phase := .post, trigger := n, next := c.hamper + 1, hdrLostRearm := 0, hdrLostPost := 0 } }
    | .post => { d with cap := { c with lostPost := sat 32 (c.lostPost + 1), hdrLostPost := c.hdrLostPost + 1 } }
    | _ => { d with cap := { c with lostRearm := sat 32 (c.lostRearm + 1), hdrLostRearm := c.hdrLostRearm + 1 } }

/-- After commit n: the post window's end closes the hamper, and the next one's RING starts with the keyframe of T + Q
(R219, R220); the re-arm window ends; an aligned fold window ends (R222). -/
def advanceHamper (n : Nat) (d : Dev) : Dev :=
  let c := d.cap
  let t := c.trigger + capQ c
  if c.phase = .post && n = t then
    let d := closeHamper false (endWindows (n + 1) d)
    if d.cap.armed then
      let d := { d with cap := { d.cap with winStart := n } }
      let d := [0, 1, 2, 3].foldl (fun d die =>
        updDie d die fun D => { D with window := [⟨n, [], some (dieKeyframe d die)⟩] }) d
      endWindows (n + 1) d
    else d
  else
    let d := if c.phase = .rearm && n = t + capRearm c then { d with cap := { c with phase := .ring } } else d
    if (n + 1) % 2 ^ capF d.cap = 0 then endWindows (n + 1) d else d

/-- Order 3 and 4 of Table 2.9 for capture: the nets of n are fixed, the sequencer evaluates, records are taken in, the hamper
moves on (R207, R208, R211). A session armed while RUNNING starts here (R215). -/
def captureBarrier (full : Bool) (n : Nat) (d : Dev) : Dev :=
  let d := keepShown n (holdTaps { d with cap := { d.cap with nets := trigNets d } })
  if d.cap.arming then startSession n d
  else if d.cap.armed then
    let d := takeRecords full n d
    let (d, tr) := seqEval d
    advanceHamper n (takeTrigger n tr d)
  else if d.cap.seqOn then
    let (d, tr) := seqEval d
    takeTrigger n tr d
  else d

/-! ## Other events (Table 10.6) -/

/-- DISARM, a full load's header, a write to the CAPTURE entry, FAULTED. -/
def dropSession (d : Dev) : Dev :=
  if d.cap.armed then
    let d := if d.cap.phase = .post then closeHamper true d else flushHeld d
    endSession true d
  else { d with cap := { d.cap with seqOn := false } }

/-- A REWIND completes. -/
def rewindSession (d : Dev) : Dev :=
  let d := if d.cap.armed || d.cap.seqOn then { d with cap := { d.cap with seqState := 0, seqCount := [] } } else d
  if d.cap.armed then
    let d := if d.cap.phase = .post then
        closeHamper true ([0, 1, 2, 3].foldl (fun d die => updDie d die fun D => { D with window := [] }) d)
      else d
    if d.cap.armed then
      { d with cap := { d.cap with phase := .ring, dies := [], winStart := d.run.committed + 1 } }
    else d
  else d

/-- The session armed while RUNNING starts once the module has settled without a further commit (R215). -/
def settleArming (d : Dev) : Dev := if d.cap.arming then startSession d.run.committed d else d

/-- The ARM checks (Table 10.9): the first code that applies, 0 for none. -/
def armCheck (d : Dev) : Nat :=
  let c := d.cap
  if c.armed then 0x0503
  else match hbmKind d 2 with
    | [] => 0x0501
    | [(_, _, base, size)] =>
      let s := capSlot size (c.hampersM1 + 1)
      let b := capBudget c d.image.l
      if base % 0x80_0000 ≠ 0 ∨ size % 0x80_0000 ≠ 0 then 0x0502
      else if s < 262144 ∨ s / 2 - 64 < 8 * b then 0x0504
      else if [0, 1, 2, 3].any (fun die =>
          let t := dieTaps d die
          let nf := (t.filter fun x => x.2).length
          decide (b < (t.length - nf) * 2 ^ capF c + 2 * nf + 1216)) then 0x0505
      else 0
    | _ => 0x0507

/-- A write of 1 to CAP_CTRL.ARM (R215, R209, R225); the answer is its code. In STRANDED it works as in STOPPED (R276; log
entry 20). -/
def capArm (d : Dev) : Nat × Dev :=
  let refuse (code : Nat) : Nat × Dev := (code, logEntry code none { d with cap := { d.cap with reason := code } })
  match d.run.st with
  | .loaded | .stopped | .running | .stranded =>
    let code := armCheck d
    if code ≠ 0 then refuse code
    else
      let slot := match hbmRegion? d 2 with
        | some (_, size) => capSlot size (d.cap.hampersM1 + 1)
        | none => 0
      let d := flushHeld d
      let d := { d with cap := { d.cap with
          armed := true, arming := true, reason := 0, hamper := 0, phase := .none, closed := 0, next := 0, lostRearm := 0
          lostPost := 0, hdrLostRearm := 0, hdrLostPost := 0, foldedCount := 0, records := 0, slot := slot
          seqState := 0, seqCount := [], seqTaken := false, seqLast := 0, seqOn := true, dies := [] } }
      (0, if d.run.st = .running then d else startSession d.run.committed d)
  | _ => refuse 0x0004

/-- A write of 1 to CAP_CTRL.DISARM (R223). -/
def capDisarm (d : Dev) : Nat × Dev :=
  if d.cap.armed then (0, dropSession { d with cap := { d.cap with reason := 0 } })
  else (0x0506, logEntry 0x0506 none { d with cap := { d.cap with reason := 0x0506 } })

/-- Bits of a 64-bit write that a capture register keeps, at a free position. -/
def capConfig (off : Nat) (v : W64) (c : Cap) : Cap :=
  if off = 0x08 then { c with hampersM1 := fld v 63 48, rearm := fld v 47 40 }
  else if off = 0x10 then { c with postQ := fld v 56 32, preP := fld v 24 0 }
  else if off = 0x18 then { c with budget := fld v 52 32, k := fld v 12 8, f := fld v 4 0 }
  else if 0xC0 ≤ off ∧ off < 0x100 ∧ off % 8 = 0 then { c with seqCmp := tset 0 c.seqCmp ((off - 0xC0) / 8) (fld v 47 0) }
  else if 0x1000 ≤ off ∧ off < 0x1400 ∧ off % 16 = 0 then
    { c with seqEntry := tset 0 c.seqEntry ((off - 0x1000) / 16) (v &&& 0xFFFF_FFFE_0000_0000) }
  else if 0x1000 ≤ off ∧ off < 0x1400 ∧ off % 16 = 8 then { c with seqMask := tset 0 c.seqMask ((off - 0x1000) / 16) v }
  else if 0x8000 ≤ off ∧ off < 0xC000 ∧ off % 8 = 0 then { c with tapEn := tset 0 c.tapEn ((off - 0x8000) / 8) v }
  else c

/-- Whether an offset is a capture configuration register (R209). -/
def isCapConfig (off : Nat) : Bool :=
  off % 8 = 0 && (off = 0x08 || off = 0x10 || off = 0x18 || (decide (0xC0 ≤ off) && decide (off < 0x100))
    || (decide (0x1000 ≤ off) && decide (off < 0x1400)) || (decide (0x8000 ≤ off) && decide (off < 0xC000)))

/-- A write to a capture register other than CAP_CTRL and CAP_STATUS (R209). SEQ_STATUS.STATE and SEQ_COUNT may be written
while a session is armed and the module is LOADED or STOPPED (or STRANDED, R276). -/
def capWrite (off : Nat) (v : W64) (d : Dev) : Dev :=
  let c := d.cap
  let refused : Dev := logOpen { d with cap := { c with cfgRefused := true } }
  let settled := d.run.st = .loaded ∨ d.run.st = .stopped ∨ d.run.st = .stranded
  if isCapConfig off then
    if c.armed then refused else { d with cap := capConfig off v c }
  else if off = 0x100 then
    if c.armed ∧ settled then { d with cap := { c with seqState := fld v 3 0 } } else refused
  else if 0x80 ≤ off ∧ off < 0xC0 ∧ off % 8 = 0 then
    if c.armed ∧ settled then { d with cap := { c with seqCount := tset 0 c.seqCount ((off - 0x80) / 8) (fld v 47 0) } }
    else refused
  else d

/-- R220: the writer agents finish the trailer and set up the next slot; the records held meanwhile are written. -/
def execHamperRearmSetup (s : State) : Host.Outcome State Fault Refusal := 
  lift (fun d => if nocOn d.clk then flushHeld d else d) s

end Sys2Proof.Machine
end

