-- ==== Sys2Proof/Machine/Memory.lean ====
section
/-! DEFINITION. Design memory and queues (chapter 5): requests and their check, serving, responses, host streams, banks. -/

namespace Sys2Proof.Machine

/-! ## Trail records (Table 9.1) -/

/-- Whether a TRAIL entry is enabled. -/
def trailOn (d : Dev) : Bool := !(hbmKind d 1).isEmpty
/-- The trail engine has written into its region (R384). -/
def trailWrites (d : Dev) : Dev := { d with trail := { d.trail with gen := d.trail.gen + 1, wrote := true } }
/-- Appends a record of a design cycle to the sub-ring of a die, while the trail is active. -/
def trailPut (die cycle : Nat) (ws : List W64) (d : Dev) : Dev :=
  if trailOn d then trailWrites { d with trail := { d.trail with rings := tupd [] d.trail.rings die (· ++ [⟨cycle, ws⟩]) } } else d
def recType (r : Rec) : Nat :=
  match r.words with
  | w :: _ => fld w 63 60
  | [] => 0
def ringOf (d : Dev) (die : Nat) : List Rec := tget [] d.trail.rings die
def dies : List Nat := [0, 1, 2, 3]

/-- Each sub-ring opens the records of design cycle n with a CYCLE record (R193). -/
def openCycle (n : Nat) (d : Dev) : Dev :=
  dies.foldl (fun d die =>
    if (ringOf d die).any (fun r => r.cycle = n && recType r = 1) then d else trailPut die n [word [(60, 4, 1), (0, 60, n)]] d) d

/-- The place word of a record: VTILE, CONTEXT and what lies below. -/
def placeWord (type v q low : Nat) : W64 := word [(60, 4, type), (51, 9, v), (42, 9, q), (0, 42, low)]
/-- MEM_UNDO (R105). -/
def undoRec (cycle v q a old : Nat) : List W64 := [word [(60, 4, 4), (0, 60, cycle)], placeWord 0 v q a, w64 old]

/-! ## MEMORY_BOUNDS (R110, R111) -/

/-- A bank serves the accesses of a master class: its owner's, and nobody's during a handover (R118, R119). -/
def bankServes (B : Bank) (o : Owner) : Bool := B.owner = o && !B.draining

/-- The cause for which a request fails its check, the lowest that applies; a word's banks are those of its bytes, and a word
never leaves one bank, since BASE is a multiple of WSIZE. -/
def boundsCause (T : Tile) (g : CtxCfg) (r : Req) : Option Nat :=
  let mem := g.kind = 0 ∨ g.kind = 1
  if mem ∧ g.words ≤ r.addr then some 0
  else if g.kind = 0 ∧ !bankServes (bankOf T (wordBank g r.addr)) .fabric then some 1
  else if mem ∧ ¬ g.writable ∧ r.op ≠ 0 then some 2
  else if !opAccepted g.kind r.op then some 3
  else none

/-- A failed request of a FIRE of design cycle n raises MEMORY_BOUNDS. -/
def raiseBounds (p c cause n : Nat) (r : Req) (d : Dev) : Dev :=
  let T := tileOf d p
  let wh := word [(29, 3, cause), (27, 2, r.op), (18, 9, T.vtile), (14, 4, c), (5, 9, r.ctx)]
  let d := if d.mem.bounds then d
    else { d with mem := { d.mem with bounds := true, place := wh, addr := r.addr, cycle := n } }
  let d := updTile d p fun T =>
    { T with memBounds := T.memBounds + 1
             conflict := if cause = 1 then tupd 0 T.conflict 0 (· + 1) else T.conflict }
  registerStop cMEMORY_BOUNDS (logEntry 0x0322 (some (d.mem.place, w64 d.mem.addr)) d)

/-- A FIRE enqueues the request of the assembler into its context, after its check (R34, R110). -/
def enqueue (p c : Nat) (d : Dev) : Dev :=
  let T := tileOf d p
  let r := request T c (clusterOf T c).asm
  let cause := boundsCause T (ctxCfg T r.ctx) r
  let e : QEnt := { op := r.op, addr := r.addr, data := w64 r.data, be := r.be, cycle := curCycle d, failed := cause.isSome,
                    served := false, avail := false, item := false, resp := 0 }
  let d := updCtx d p r.ctx fun X => { X with ents := X.ents ++ [e] }
  let d := if responds r.op then updCluster d p c fun C => { C with order := C.order ++ [r.ctx] } else d
  match cause with
  | some k => raiseBounds p c k (curCycle d) r d
  | none => d

/-! ## Serving (R102, R103, R105) -/

/-- Staged completions are at their limit (R234). -/
def stagedFull (d : Dev) : Bool := decide (65536 ≤ d.bkt.staged.length)
def stage (port cycle : Nat) (v : W64) (d : Dev) : Dev :=
  { d with bkt := { d.bkt with staged := d.bkt.staged ++ [(port, cycle, v)] } }
/-- Whether a loaded BASKET_DONE context names a port. -/
def hasDone (d : Dev) (port : Nat) : Bool :=
  (placedTiles d).any fun (_, T) => (ctxsOf T).any fun (_, g) => g.kind = 3 && g.base % 4096 = port

/-- The entry of an index after it has been served: a posted request that holds nothing leaves its context. -/
def settleEnt (i : Nat) (e : QEnt) (X : Ctx) : Ctx :=
  if e.op = 1 && !e.item then { X with ents := X.ents.eraseIdx i } else { X with ents := X.ents.set i e }

/-- The write of a BANK or HBM request: the undo record first, then the enabled bytes. -/
def performWrite (p q : Nat) (g : CtxCfg) (e : QEnt) (d : Dev) : Dev :=
  let a := g.base + e.addr * g.wsize
  let T := tileOf d p
  if g.kind = 0 then
    let old := mread T.mem a g.wsize
    let d := trailPut (p / 132) e.cycle (undoRec e.cycle T.vtile q e.addr old) d
    updTile d p fun T => { T with mem := mwriteBe T.mem a g.wsize e.data.toNat e.be }
  else
    let old := hbmRead d.mem a g.wsize
    let d := trailPut (p / 132) e.cycle (undoRec e.cycle T.vtile q e.addr old) d
    putHbmBe a g.wsize e.data.toNat e.be d

/-- The word that a BANK or HBM request addresses. -/
def oldWord (p : Nat) (g : CtxCfg) (e : QEnt) (d : Dev) : W64 :=
  let a := g.base + e.addr * g.wsize
  w64 (if g.kind = 0 then mread (tileOf d p).mem a g.wsize else hbmRead d.mem a g.wsize)

/-- A request whose turn has come can be served: a take with no item to take waits (R106, R114). -/
def servable (g : CtxCfg) (X : Ctx) (e : QEnt) : Bool := !e.served && (e.failed || !isTake g.kind || !X.items.isEmpty)
/-- The request that its queue controller serves next: the oldest one, if it can be served (R103, R110). In a drain before STOPPED a take
that has no item stays where it is, and what failed behind it is served too (R106; log entry 87). -/
def nextServed (drain : Bool) (g : CtxCfg) (X : Ctx) : Option Nat :=
  if drain then X.ents.findIdx? (servable g X)
  else (X.ents.findIdx? fun e => !e.served).filter fun i => X.ents[i]?.any (servable g X)
/-- The cycle of a take that completes the oldest item of a port: that of its FIRE, or of the item's delivery where that came later
(R19, R234). -/
def takeCycle (d : Dev) (port fired : Nat) : Nat :=
  let l := sortBy (·.ord) (d.bkt.descs.filter fun x => x.port = port && x.st = 3)
  max fired ((l[(d.bkt.staged.filter fun x => x.1 = port).length]?.map (·.delivered)).getD 0)
/-- The queue controller of context q serves its next request; its response keeps its place. A bank that has been asked to change hands
refuses a request that was queued before, as in the request's check (R119). A take whose completion finds staging full stays unserved (R234,
log entry 91). -/
def serveOne (drain : Bool) (p q : Nat) (d : Dev) : Dev :=
  let T := tileOf d p
  let g := ctxCfg T q
  let X := ctxOf T q
  match nextServed drain g X with
  | none => d
  | some i =>
    match X.ents[i]? with
    | none => d
    | some e =>
      let e' := { e with served := true }
      if e.failed then updCtx d p q (settleEnt i e')
      else if g.kind = 0 && !bankServes (bankOf T (wordBank g e.addr)) .fabric then
        raiseBounds p (q / 32) 1 e.cycle ⟨q, e.op, e.addr, e.data.toNat, e.be⟩ (updCtx d p q (settleEnt i { e' with failed := true }))
      else match g.kind with
      | 0 | 1 =>
        let r : W64 := if e.op = 0 ∨ e.op = 3 then oldWord p g e d else 0
        let d := if e.op = 0 then d else performWrite p q g e d
        updCtx d p q (settleEnt i { e' with resp := r })
      | 3 =>
        if stagedFull d || X.ents.any (·.item) then updCtx d p q (settleEnt i { e' with item := true })
        else updCtx (stage (g.base % 4096) e.cycle e.data d) p q (settleEnt i e')
      | 4 => updCtx d p q fun X => { settleEnt i { e' with item := true } X with count := X.count + 1 }
      | _ =>
        match X.items with
        | [] => d
        | v :: rest =>
          let direct := g.kind = 2 ∧ ¬ hasDone d (g.base % 4096)
          if direct ∧ stagedFull d then d
          else
            let d := if direct then stage (g.base % 4096) (takeCycle d (g.base % 4096) e.cycle) 0 d else d
            updCtx d p q fun X =>
              { settleEnt i { e' with resp := v } X with items := rest, flows := X.flows.tail, count := X.count + 1 }

/-- A completion held in a BASKET_DONE context is staged once staging has room again. -/
def stageHeld (p q : Nat) (d : Dev) : Dev :=
  let T := tileOf d p
  let X := ctxOf T q
  if stagedFull d then d
  else match X.ents.findIdx? (·.item) with
    | none => d
    | some i => match X.ents[i]? with
      | none => d
      | some e =>
        updCtx (stage ((ctxCfg T q).base % 4096) e.cycle e.data d) p q (settleEnt i { e with item := false })

/-- The response of the oldest served request of a context becomes available to WAIT. -/
def makeAvail (p q : Nat) (d : Dev) : Dev :=
  updCtx d p q fun X =>
    match X.ents.findIdx? (fun e => e.served && responds e.op && !e.avail) with
    | none => X
    | some i => { X with ents := X.ents.modify i fun e => { e with avail := true } }

/-- Requests of a context that a drain must serve. -/
def pendingOf (T : Tile) (q : Nat) : Nat := ((ctxOf T q).ents.filter (servable (ctxCfg T q) (ctxOf T q))).length

/-- The requests of a context that the FIREs made so far have settled and that still wait for service: posts, and takes that have an item
(R19, R117). -/
def settledCount (T : Tile) (q : Nat) : Nat :=
  let X := ctxOf T q
  let wait := (X.ents.filter fun e => !e.served && !e.failed).length
  match (ctxCfg T q).kind with
    | 4 => wait
    | 2 | 5 => min wait X.items.length
    | _ => 0
/-- The items that the design has posted into a context or taken from it, by the FIREs made so far. -/
def doneCount (T : Tile) (q : Nat) : Nat := (ctxOf T q).count + settledCount T q

/-- Serves every request that a drain must serve in a context; the fuel is their number. -/
def drainCtx (p q : Nat) : Nat → Dev → Dev
  | 0, d => d
  | n + 1, d => drainCtx p q n (serveOne true p q d)
def drainTile (p : Nat) (d : Dev) : Dev :=
  (tileOf d p).ctxs.foldl (fun d (q, X) => drainCtx p q (X.ents.filter (!·.served)).length d) d
/-- Every queue controller serves what it must. -/
def drainAll (d : Dev) : Dev := d.tiles.foldl (fun d (p, _) => drainTile p d) d
/-- Whether every queue controller has drained (R106, R175). -/
def drained (d : Dev) : Bool := d.tiles.all fun (_, T) => T.ctxs.all fun (q, _) => pendingOf T q = 0

/-! ## WAIT (R32, R104) -/

/-- The context and index of the response that the cluster's next WAIT consumes, if it has arrived. -/
def nextResponse (T : Tile) (c : Nat) : Option (Nat × Nat × QEnt) :=
  match (clusterOf T c).order with
  | [] => none
  | q :: _ =>
    match (ctxOf T q).ents.findIdx? (fun e => responds e.op) with
    | none => none
    | some i => match (ctxOf T q).ents[i]? with
      | some e => if e.avail then some (q, i, e) else none
      | none => none

/-- Consumes it into the response window; an entry whose item has not been removed stays, with nothing left to consume
(R103). -/
def consume (p c : Nat) (d : Dev) : Dev :=
  match nextResponse (tileOf d p) c with
  | none => d
  | some (q, i, e) =>
    let d := updCtx d p q (settleEnt i { e with op := 1 })
    updCluster d p c fun C => { C with window := e.resp, order := C.order.tail }

/-! ## Room for a FIRE (R107) -/

/-- Whether a request finds room, counting what a WAIT of the same step frees. -/
def fireRoom (T : Tile) (c : Nat) (r : Req) (wait : Bool) : Bool :=
  let g := ctxCfg T r.ctx
  let freed := if wait then match nextResponse T c with
      | some (q, _, e) => if q = r.ctx ∧ !e.item then 1 else 0
      | none => 0
    else 0
  (isTake g.kind || decide (occupancy g.kind (ctxOf T r.ctx) < g.depth + freed)) &&
    (!responds r.op || decide ((clusterOf T c).order.length < 64 + b2n wait))

/-! ## Host streams (R112 to R116) -/

/-- The service condition of Table 5.9 under which a read of an empty HSTREAM_IN context answers the idle item. -/
def idleService (d : Dev) (p : Nat) : Bool :=
  match d.run.st with
  | .boot | .idle | .loading | .rewinding | .stranded | .faulted => true
  | st => (decide (st = .releasing) && decide (d.ld.stage < 2)) || d.keep.selftest.isSome || decide ((regionOf d (tileRegion d.fuse p)).st ≠ .active)

/-- A read of QCTX_STREAM. -/
def streamRead (p q : Nat) (d : Dev) : W64 × Dev :=
  let T := tileOf d p
  let X := ctxOf T q
  if (ctxCfg T q).kind = 4 && (ctxCfg T q).valid then
    match X.ents.findIdx? (·.item) with
    | some i => match X.ents[i]? with
      | some e =>
        (word [fb 32 true, (0, 32, e.data.toNat)],
         updCtx d p q fun X => { settleEnt i { e with item := false } X with last := e.data.setWidth 32 })
      | none => (0, d)
    | none =>
      if idleService d p then (word [fb 33 true], d)
      else (word [(0, 32, X.last.toNat)], updCtx d p q fun X => { X with underrun := true })
  else (0, d)

/-- A write of QCTX_STREAM; the Bool says that it was refused. -/
def streamWrite (p q : Nat) (v : W64) (d : Dev) : Bool × Dev :=
  let T := tileOf d p
  let g := ctxCfg T q
  let X := ctxOf T q
  if ¬ (g.kind = 5 ∧ g.valid) then (false, d)
  else
    let free := g.depth - occupancy 5 X
    let item : W64 := (v.setWidth 32).setWidth 64
    let spill : Bool × Dev := (true, updCtx d p q fun X => { X with overrun := true })
    let close (l : List W64) (X : Ctx) : Ctx := { X with openPkt := none, items := X.items ++ w64 l.length :: l }
    if bit v 33 then
      match X.openPkt with
      | some l => (false, updCtx d p q (close l))
      | none => if free = 0 then spill else (false, updCtx d p q (close []))
    else
      match X.openPkt with
      | some l =>
        if free = 0 then spill
        else if bit v 32 then (false, updCtx d p q (close (l ++ [item])))
        else (false, updCtx d p q fun X => { X with openPkt := some (l ++ [item]) })
      | none =>
        if free < 2 then spill
        else if bit v 32 then (false, updCtx d p q (close [item]))
        else (false, updCtx d p q fun X => { X with openPkt := some [item] })

/-! ## Bank ownership (R118 to R120) -/

def ownerCode : Owner → Nat
  | .fabric => 0
  | .host => 1
  | .service => 2
  | .trail => 3
def ownerOf : Nat → Owner
  | 0 => .fabric
  | 1 => .host
  | 2 => .service
  | _ => .trail
/-- The owner that a master counts as (Table 5.10). -/
def masterOwner : Master → Owner
  | .seat _ => .host
  | .core | .loader => .service
  | .trail => .trail

/-- A tile waits for its load to complete (R155). -/
def awaitsLoad (d : Dev) (p : Nat) : Bool := !(tileOf d p).loaded

/-- Words go by DMA into the memory of the host at a port; the parallel slave port has no path there. -/
def dmaWrite (port : Port) (a : Nat) (ws : List W64) (d : Dev) : Dev :=
  match port with
  | .a => { d with host := { d.host with dmaA := mwriteWords d.host.dmaA a ws } }
  | .b => { d with host := { d.host with dmaB := mwriteWords d.host.dmaB a ws } }
  | .psp => d

/-- A write of REQ_OWNER (R119, R120). Until a tile's load completes its banks stay with SERVICE: the field is written, and no
handover begins (R155). -/
def requestOwner (p b : Nat) (o : Owner) (d : Dev) : Dev :=
  let T := tileOf d p
  if awaitsLoad d p then updBank d p b fun B => { B with req := o }
  else if (mappedBanks T).contains b && !(d.run.st = .loaded || d.run.st = .stopped) then
    logOpen (updBank d p b fun B => { B with refused := true })
  else updBank d p b fun B => { B with req := o, draining := true }

/-- The last in-flight access completes. -/
def ownerDone (p b : Nat) (d : Dev) : Dev :=
  if awaitsLoad d p then d
  else updBank d p b fun B => if B.draining then { B with owner := B.req, draining := false } else B

/-- Hands every mapped bank to an owner (R105), outside R120. -/
def handBanks (o : Owner) (d : Dev) : Dev :=
  (placedTiles d).foldl (fun d (p, T) => (mappedBanks T).foldl (fun d b =>
    updBank d p b fun B => { B with owner := o, req := o, draining := false }) d) d

/-- A service-network access to a bank's contents by a master: 8 bytes at a tile-relative offset. The answer is whether it
was performed, and the data (R118, R155). A refusal of R155 alone counts in no conflict register. -/
def bankAcc (m : Master) (p off : Nat) (acc : Access) (d : Dev) : Option W64 × Dev :=
  let T := tileOf d p
  let B := bankOf T (off / 0x4_0000 % 16)
  if !bankServes B (masterOwner m) then
    (none, updTile d p fun T => { T with conflict := tupd 0 T.conflict (masterClass m) (· + 1) })
  else if awaitsLoad d p then (none, d)
  else match acc with
    | .read => (some (w64 (mread T.mem (off / 8 * 8) 8)), d)
    | .write v =>
      let d := updTile d p fun T => { T with mem := mwrite T.mem (off / 8 * 8) 8 v.toNat }
      (some 0, if (mappedBanks T).contains (off / 0x4_0000 % 16) then
        { d with mem := { d.mem with hostWrites := d.mem.hostWrites + 1 } } else d)

/-! ## HBM through the service network (R94, R229, R384) -/

/-- The enabled region entry that holds an address: (kind, base, size); the lowest of several that overlap, which is the model's choice
(log entry 87). -/
def regionAt (d : Dev) (a : Nat) : Option (Nat × Nat × Nat) :=
  ((hbmEntries d).find? fun (_, _, base, size) => decide (base ≤ a) && decide (a < base + size)).map (·.2)
/-- A busy bit of Basket (R229): set from submission until DONE. -/
def slotBusy (d : Dev) (slot : Nat) : Bool := decide (slot < 0x100_0000) && d.bkt.descs.any fun x => x.slot = slot
/-- The number of start-up stages passed once the HBM stage has passed (Table 17.3). -/
abbrev hbmStage := 4

/-- A word of the TRAIL region: once the engine has written there, its bytes are open, and stand until it writes again (log entry 6). -/
def trailWord (d : Dev) (a : Nat) : W64 :=
  w64 (if d.trail.wrote then natOf ((List.range 8).map fun i => Config.trailByte d.trail.gen (a + i)) else hbmRead d.mem a 8)
/-- One 8-byte access to HBM by the service network; `none` is an access-error response. The kinds 6 and 7, which nothing uses, are read
like any region and refuse writes, the model's choice (log entry 87). -/
def hbmAcc (a : Nat) (acc : Access) (d : Dev) : Option W64 × Dev :=
  let serve (count : Bool) (d : Dev) : Option W64 × Dev :=
    match acc with
    | .read => (some (w64 (hbmRead d.mem (a / 8 * 8) 8)), d)
    | .write v =>
      let d := putHbm (a / 8 * 8) 8 v.toNat d
      (some 0, if count then { d with mem := { d.mem with hostWrites := d.mem.hostWrites + 1 } } else d)
  if d.clk.stage < hbmStage ∨ 0x30_0000_0000 ≤ a then (none, d)
  else match regionAt d a, acc with
    | none, _ => serve false d
    | some (0, _, _), .read => serve false d
    | some (0, _, _), .write _ =>
      match d.run.st with
      | .releasing | .running | .stopping | .rewinding | .stranded =>
        (none, { d with mem := { d.mem with hbmRefused := d.mem.hbmRefused + 1 } })
      | _ => serve true d
    | some (3, base, _), .write _ =>
      if a - base < 0x10_0000 ∨ slotBusy d ((a - base - 0x10_0000) / 64) then
        (none, { d with bkt := { d.bkt with hostWriteRefused := d.bkt.hostWriteRefused + 1 } })
      else serve false d
    | some (1, _, _), .read => (some (trailWord d (a / 8 * 8)), d)
    | some _, .read => serve false d
    | some _, .write _ => (none, d)

/-- The engine's region is no longer its own: what it wrote there stands until others write (R384). -/
def leaveTrail (d : Dev) : Dev :=
  match if d.trail.wrote then hbmRegion? d 1 else none with
  | none => d
  | some (base, size) =>
    { d with mem := { d.mem with stale := (base, base + size, d.trail.gen) :: cutStale base (base + size) d.mem.stale }
             trail := { d.trail with wrote := false } }
/-- The trail becomes empty (R192); its registers HEAD, CKPT_LAST and REPLAY then read 0 (log entry 90). -/
def emptyTrail (d : Dev) : Dev :=
  { d with trail := { d.trail with empty := true, rings := [], ckpts := [], composing := [], head := 0, ckptLast := 0
                                   replay := 0, logRecs := [], short := 0, reload := [], shown := [] } }

/-- Tracing into the TRACE region ends (R345). -/
def cutTrace (d : Dev) : Dev :=
  if d.trc.active && d.trc.output = 1 then
    { d with trc := { d.trc with active := false, enable := false, flushing := false, restart := false, cut := true
                                 waiting := [], page := none, done := []
                                 cores := d.trc.cores.filterMap fun (n, c) => if c = 3 then none else some (n, 2) } }
  else d

/-- A write to the HBM region table (R92): the manager seat's, in IDLE, LOADED or STOPPED. A write to the TRAIL entry empties
the trail (R192), to the CAPTURE entry ends a session, whose last words still go to the region as it was (R223), to the TRACE entry
ends tracing (R345). An entry that reaches beyond the HBM range is taken as written (log entry 89). -/
def regionTableWrite (entry : Nat) (size : Bool) (v : W64) (d : Dev) : Dev :=
  match d.run.st with
  | .idle | .loaded | .stopped =>
    let old := tget 0 d.mem.regionSize entry
    let new := if size then v &&& 0xF000_003F_FFE0_0000 else old
    let touches (k : Nat) : Bool := (bit old 63 && fld old 62 60 = k) || (bit new 63 && fld new 62 60 = k)
    let d := if touches 2 then dropSession d else d
    let d := if touches 1 then leaveTrail d else d
    let d := if size then
        { d with mem := { d.mem with regionSize := tset 0 d.mem.regionSize entry new } }
      else { d with mem := { d.mem with regionBase := tset 0 d.mem.regionBase entry (v &&& 0x0000_003F_FFE0_0000) } }
    let d := if touches 1 then emptyTrail d else d
    if touches 5 then cutTrace d else d
  | _ => logOpen { d with mem := { d.mem with regionRefused := true } }

end Sys2Proof.Machine
end

