-- ==== Sys2Proof/Machine/Access.lean ====
section
/-! DEFINITION. Who may access what: the busy rule (R300), the protection set-up (R306 to R308), domains and dead targets
(R321, R322), and the rows that access design memory through the service network. -/

namespace Sys2Proof.Machine

/-! ## The gate before an access -/

/-- A long operation is in progress (R300). -/
def longOp (d : Dev) : Bool := decide (d.host.longKind ≠ 0)
/-- A seat takes up the protection generation in force (R307). -/
def takeUp (s : Seat) (d : Dev) : Dev := updSeat d s fun S => { S with protUse := S.prot, gen := d.host.protGen }
/-- An ignored write (R293, R300). -/
def refuseSeat (s : Seat) (d : Dev) : Dev := updSeat d s fun S => { S with refused := S.refused + 1 }

/-- Permissions, by their bit of PROT_SEAT (Table 14.10). -/
abbrev pLOAD := 63
abbrev pRUN := 62
abbrev pTRAIL := 61
abbrev pCAPTURE := 60
abbrev pBASKET := 59
abbrev pLINKS := 58
abbrev pSYSTEM := 57
abbrev pBANKS_W := 56
abbrev pBANKS_R := 55
abbrev pHBM := 54
abbrev pKEEP_R := 53
abbrev pDIAG := 52

/-- The manager seat holds every permission (R306). -/
def seatHolds (d : Dev) (s : Seat) (perm : Nat) : Bool := s = .manager || bit (seatOf d.host s).protUse perm
/-- A write to a tile's control block or banks needs its region in REGIONS; a tile of no region is the manager seat's (R306). -/
def seatRegion (d : Dev) (s : Seat) (p : Nat) : Bool :=
  s = .manager || (decide (tileRegion d.fuse p < 32) && bit (seatOf d.host s).protUse (tileRegion d.fuse p))

/-! ## Addresses (Table 15.2) -/

/-- The registers of a block: its base and the offset. -/
abbrev aSn (off : Nat) : Nat := 0x60_0000_0000 + off
abbrev aIrq (off : Nat) : Nat := 0x60_0001_0000 + off
abbrev aTrace (off : Nat) : Nat := 0x60_0002_0000 + off
abbrev aBasket (off : Nat) : Nat := 0x60_0003_0000 + off
abbrev aCapture (off : Nat) : Nat := 0x60_0004_0000 + off
abbrev aTrail (off : Nat) : Nat := 0x60_0005_0000 + off
abbrev aClocks (off : Nat) : Nat := 0x60_0006_0000 + off
abbrev aRun (off : Nat) : Nat := 0x60_0007_0000 + off
abbrev aTile (p off : Nat) : Nat := 0x50_0000_0000 + 0x1_0000 * p + off
abbrev aBank (p off : Nat) : Nat := 0x40_0000_0000 + 0x40_0000 * p + off
/-- A module lane's block, or that of pair lane `lane − 1024` (R280). -/
def aLane (lane off : Nat) : Nat :=
  if 1024 ≤ lane then 0x60_1040_0000 + 0x1000 * (lane - 1024) + off else 0x60_1000_0000 + 0x1000 * lane + off

/-- What an access asks for: whether its address decodes, the permission bits it needs, the tile it writes, the power domain and
node it goes to, and the seats that its chapter's seat rule admits. -/
structure Ask where
  addr : Nat
  decoded : Bool
  perms : List Nat
  tile : Option Nat
  domain : Nat
  node : Nat
  seats : List Seat
  deriving DecidableEq, Repr

/-- The node of the clocks-and-power block. -/
abbrev nClocks : Nat := 0x409
/-- Permissions that a write to an offset of the run-control block needs (R92, R166, R289, R306). -/
def runPerms (off : Nat) : List Nat :=
  if 0x0C00 ≤ off ∧ off < 0x1400 then [pSYSTEM]
  else if 0x0600 ≤ off ∧ off < 0x0C00 then []
  else [pRUN]
/-- Permissions that a write to hub block i of Table 15.2 needs. -/
def hubPerms (i off : Nat) : List Nat :=
  match i with
  | 2 => [pDIAG]
  | 3 => [pBASKET]
  | 4 => [pCAPTURE]
  | 5 => [pTRAIL]
  | 7 => runPerms off
  | _ => []
/-- The seats that may write a register of the interrupt controller: IRQ_PENDING the board seat too, IRQ_COMPLETE the seat of the
vector (R333, R334, R336). -/
def irqSeats (off : Nat) : List Seat :=
  let t := (off - 0x100) / 32
  if 0x1000 ≤ off ∧ off < 0x1100 then boardSeats
  else if 0x100 ≤ off ∧ off < 0x380 ∧ off % 32 / 8 = 2 ∧ 12 ≤ t then [.manager, if t < 16 then .run else .debug]
  else managerSeat
/-- The seats that may write a register of hub block i of Table 15.2, by the seat rule of its chapter (R92, R166, R206, R225, R244,
R289, R326, R336, R346, R368, R382). A rule for the RW and WO fields leaves a register without them to every seat. -/
def hubSeats (i off : Nat) : List Seat :=
  match i with
  | 0 => managerSeat
  | 1 => irqSeats off
  | 2 => [.manager, .debug]
  | 3 => if off = 8 ∨ off = 0x18 ∨ off = 0x100 ∨ (0x1000 ≤ off ∧ off < 0x9000) then [.manager, .run] else everySeat
  | 4 => if off < 0x20 ∨ (0x80 ≤ off ∧ off ≤ 0x100) ∨ 0x1000 ≤ off then [.manager, .run, .debug] else everySeat
  | 5 => if off = 0 ∨ off = 0x80 then [.manager, .run] else everySeat
  | 6 => boardSeats
  | 7 => if 0x600 ≤ off ∧ off < 0x700 then managerSeat
    else if (0x820 ≤ off ∧ off ≤ 0x830) ∨ off = 0xC00 ∨ off = 0xC08 ∨ off = 0xC40 ∨ off = 0xC48 ∨ (0x1000 ≤ off ∧ off < 0x1400)
      then boardSeats
    else everySeat
  | _ => everySeat
/-- The address decode, with the permissions of R306. -/
def askAt (write : Bool) (a : Nat) : Ask :=
  let hub (perms : List Nat) (i : Nat) (seats : List Seat) : Ask := ⟨a, true, perms, none, 14, 0x400 + i, if write then seats else everySeat⟩
  let ofTile (perms : List Nat) (p : Nat) : Ask :=
    ⟨a, true, perms, if write then some p else none, p / 132, p / 132 * 256 + p % 132, everySeat⟩
  if a < 0x30_0000_0000 then ⟨a, true, [pHBM], none, 4 + hbmDie a, hbmDie a * 256, everySeat⟩
  else if 0x40_0000_0000 ≤ a ∧ a < 0x40_8400_0000 then
    ofTile [if write then pBANKS_W else pBANKS_R] ((a - 0x40_0000_0000) / 0x40_0000)
  else if 0x50_0000_0000 ≤ a ∧ a < 0x50_0210_0000 then
    let off := a % 0x1_0000
    ofTile (if write ∧ 0x1180 ≤ off ∧ off < 0x1200 then [pBANKS_W] else []) ((a - 0x50_0000_0000) / 0x1_0000)
  else if 0x60_0000_0000 ≤ a ∧ a < 0x60_0009_0000 then
    let i := (a - 0x60_0000_0000) / 0x1_0000
    hub (if write then hubPerms i (a % 0x1_0000) else []) ([15, 4, 5, 6, 7, 8, 9, 10, 10].getD i 15)
      (hubSeats i (a % 0x1_0000 / 8 * 8))
  else if 0x60_1000_0000 ≤ a ∧ a < 0x60_1040_0000 then
    let lane := (a - 0x60_1000_0000) / 0x1000
    ⟨a, true, if write then [pLINKS] else [], none, 8 + lane / 256, lane / 256 * 256 + 120 + lane % 256 / 32,
      if write then boardSeats else everySeat⟩
  else if 0x60_1040_0000 ≤ a ∧ a < 0x60_1040_8000 then hub (if write then [pLINKS] else []) 10 boardSeats
  else if 0x68_0000_0000 ≤ a ∧ a < 0x68_0400_0000 then hub (if write then [] else [pKEEP_R]) 14 everySeat
  else ⟨a, false, [], none, 15, 0, everySeat⟩

/-- SN_ERR_LOG of a master class takes a non-OK status with the request's address (R319). -/
def noteStatus (m : Master) (status a : Nat) (d : Dev) : Dev :=
  if status = 0 then d
  else { d with sn := { d.sn with errLog := tset 0 d.sn.errLog (masterClass m) (word [(60, 4, status), (0, 40, a)]) } }

/-- The node of a host port (Table 15.1). -/
def portNode : Port → Nat
  | .a => 0x40B
  | .b => 0x40C
  | .psp => 0x40D
/-- The node that injects a master's requests: a seat's the port that it is bound to, the service cores' the first of them, the loader's
run control, the trail engine (log entry 100). -/
def masterNode (d : Dev) : Master → Nat
  | .seat s => portNode (if s = .board then .psp else (seatOf d.host s).port)
  | .core => 0x400
  | .loader => 0x40A
  | .trail => 0x408
/-- The request of an access, as it is injected. -/
def requestOf (m : Master) (write : Bool) (a : Ask) (d : Dev) : Packet :=
  ⟨b2n write, 0, d.sn.current, masterNode d m, a.node, 0, 0, 0, 255, a.addr, masterClass m, []⟩

/-! ## Waits before injection (R318, R320, R322, R323) -/

/-- Requests outstanding and flits of a node's response buffer (Table 15.5); a node that the table does not name has no limit. -/
def bufferOf (src : Nat) : Option (Nat × Nat) :=
  if 0x400 ≤ src ∧ src < 0x404 then some (32, 256)
  else match src with
    | 0x406 => some (64, 128)
    | 0x408 => some (32, 256)
    | 0x40A => some (64, 512)
    | 0x40B => some (256, 2048)
    | 0x40C => some (128, 1024)
    | 0x40D => some (8, 128)
    | _ => none
/-- Flits that the response of a request takes. -/
def roomOf (p : Packet) : Nat := if p.kind = 0 then 1 + (p.lenM1 + 4) / 4 else 1
/-- The response buffer of the source has room for the response. -/
def hasRoom (d : Dev) (p : Packet) : Bool :=
  match bufferOf p.src with
  | none => true
  | some (n, flits) =>
    let l := (d.sn.owed ++ d.sn.lost).filter fun x => x.src = p.src
    decide (l.length < n) && decide ((l.map roomOf).sum + roomOf p ≤ flits)
/-- READ or WRITE. -/
def nonPosted (p : Packet) : Bool := decide (p.kind ≤ 1)
/-- The request of an access that waits. -/
def heldPacket (d : Dev) (h : Held) : Packet := requestOf h.master h.write.isSome (askAt h.write.isSome h.addr) d
/-- A packet that waits, of the same source and destination, and that this one may not pass: one of its own network, or one of VN2 (R318). -/
def mayNotPass (d : Dev) (p : Packet) : Bool :=
  let same (x : Packet) : Bool := x.src = p.src && x.dst = p.dst && (x.vn = p.vn || x.vn = 2)
  d.sn.waiting.any (fun x => same x.1) || d.sn.held.any fun h => same (heldPacket d h)
/-- A packet may not be injected yet. -/
def mustWait (d : Dev) (p : Packet) : Bool :=
  blockedTo d p.dst || !domainOn d (nodeDomain p.src) || (nonPosted p && !hasRoom d p) || mayNotPass d p
/-- The same of an access: a request without a node goes no further than its first router; the Keep store takes none while its clock is
gated (R348). -/
def accessWaits (m : Master) (write : Bool) (a : Ask) (d : Dev) : Bool :=
  let p := requestOf m write a d
  (a.node = 0x40E && !keepOn d.clk) || if a.decoded then mustWait d p else !domainOn d (nodeDomain p.src) || !hasRoom d p
/-- An access waits. -/
def holdAccess (via : Via) (m : Master) (a : Nat) (w : Option (W64 × Nat)) (env : PinEnv) (d : Dev) : Dev :=
  { d with sn := { d.sn with held := d.sn.held ++ [⟨via, m, a, w, env, d.sn.waiting.length⟩] } }

/-! ## The gate -/

/-- A request whose response will not come keeps its room in the response buffer (R320; log entry 100). -/
def keepRoom (p : Packet) (d : Dev) : Dev := { d with sn := { d.sn with lost := d.sn.lost ++ [p] } }
/-- The way of an access to its node: 0 where it arrives; else what `travel` says, logged (R319). -/
def reachNode (m : Master) (write : Bool) (a : Ask) (d : Dev) : Nat × Dev :=
  let p := requestOf m write a d
  let (n, d) := travel p a.decoded a.domain d
  (n, if n < 16 then noteStatus m n a.addr d else keepRoom p d)
/-- The response of a request that arrived goes back. -/
def goBack (p : Packet) (status : Nat) (d : Dev) : Dev := passResponse p p.dst status (blankWords p) d
/-- It reaches the initiator (R316). -/
def comesBack (p : Packet) (d : Dev) : Bool := arrives d.sn p.dst p.src p.epoch

/-- How a seat's access is judged before it is injected, by the seat rule of the chapter and the protection set-up (R306): 0 where it
may go, 1 for the board seat's access-error during start-up (R355), 16 for an ignored write, 17 for a denial, 18 for an access that no
port takes (R355, R358), 19 for one without an answer, its target's clock stopped (R348, R350, log entry 60). -/
def judge (m : Master) (write : Bool) (a : Ask) (d : Dev) : Nat × Dev :=
  if d.clk.pw ≠ 4 && (!nocOn d.clk || (a.node = 0x40E && !keepOn d.clk)) then (19, d)
  else match m with
  | .seat s =>
    if d.clk.pw = 4 then (18, d)
    else if d.run.st = .boot && !(s = .board && a.node = nClocks && decide (1 ≤ d.clk.stage)) then
      if s = .board && decide (1 ≤ d.clk.stage) then (1, noteStatus m 1 a.addr d) else (18, d)
    else
      let d := takeUp s d
      if write && longOp d then (16, refuseSeat s d)
      else if !a.seats.contains s || !(a.perms.all (seatHolds d s)) || a.tile.any (fun p => !seatRegion d s p) then (17, denySeat s d)
      else (0, d)
  | _ => (0, d)
/-- An access up to its node: the codes of `judge`, 20 for one that waits, then those of `travel`. -/
def gate (m : Master) (write : Bool) (a : Ask) (d : Dev) : Nat × Dev :=
  let (g, d) := judge m write a d
  if g ≠ 0 then (g, d) else if accessWaits m write a d then (20, d) else reachNode m write a d
/-- A write that arrives is performed with STATUS OK. -/
def enter (m : Master) (addr : Nat) (d : Dev) : Nat × Dev :=
  let a := askAt true addr
  let (g, d) := gate m true a d
  (g, if g = 0 then goBack (requestOf m true a d) 0 d else d)

/-- A STATUS other than OK, or a denial, of a seat's access (R308, R319): the manager's read outside SN_CTRL is one through BAR2 and shows
as a Completer Abort, any other sets SN_CTRL.ERR but for a write through BAR2. -/
def seatError (m : Master) (read : Bool) (d : Dev) : Dev :=
  match m with
  | .seat s =>
    if s = .manager && !(seatOf d.host s).snGo then
      (if read then { d with host := { d.host with answer := { d.host.answer with abort := true } } } else d)
    else updSeat d s fun S => { S with snErr := true }
  | _ => d
/-- The answer that the initiator gets. -/
def answer (status : Nat) (v : W64) (d : Dev) : Dev :=
  { d with host := { d.host with answer := { Answer.reset with status := min status 15, data := v } } }
/-- The answer to an access that the gate did not pass; one that is lost on its way has none. -/
def answerGate (g : Nat) (d : Dev) : Dev :=
  { d with host := { d.host with answer := if 19 ≤ g then d.host.answer else
      { Answer.reset with status := if g < 16 then g else 0, ignored := g = 16, denied := g = 17, unsupported := g = 18 } } }
/-- The codes of an access that failed. -/
def failed (g : Nat) : Bool := decide (0 < g) && decide (g < 18)
/-- What an access that the gate did not pass comes to: its answer, and the seat's error. -/
def endGate (m : Master) (write : Bool) (g : Nat) (d : Dev) : Dev :=
  let d := answerGate g d
  if failed g then seatError m (!write) d else d
/-- A write of the 8 bytes `v` at an address has its effect `f` where it passes the gate; one that must wait is held. -/
def byWrite (m : Master) (addr : Nat) (v : W64) (f : Dev → Dev) (d : Dev) (env : PinEnv := PinEnv.none) : Dev :=
  let (g, d) := enter m addr d
  if g = 0 then f d
  else if g = 20 then holdAccess (.posted m) m addr (some (v, 255)) env d
  else if failed g then seatError m false d
  else if g = 18 then answerGate g d
  else d
/-- An access error of a node is a refusal, which has an entry in the diagnostic log (R311). -/
def logError (n : Nat) (d : Dev) : Dev := if n = 1 then logOpen d else d
/-- An access that arrived is answered, unless its response is lost on its way back; a STATUS other than OK goes into SN_ERR_LOG. -/
def reply (m : Master) (write : Bool) (addr n : Nat) (v : W64) (d : Dev) : Dev :=
  let p := requestOf m write (askAt write addr) d
  let d := goBack p n (logError n d)
  if comesBack p d then
    let d := answer n v (noteStatus m n addr d)
    if n = 0 then d else seatError m (!write) d
  else keepRoom p d
/-- An access whose effect is `f`: data, or `none` for an access-error response; `w` is the word of a write. -/
def byAccess (m : Master) (w : Option W64) (addr : Nat) (f : Dev → Option W64 × Dev) (d : Dev) : Dev :=
  let write := w.isSome
  let (g, d) := gate m write (askAt write addr) d
  if g = 20 then holdAccess (.direct m) m addr (w.map fun v => (v, 255)) PinEnv.none d
  else if g ≠ 0 then endGate m write g d
  else
    let (r, d) := f d
    let n := if r.isSome then 0 else 1
    reply m write addr n (r.getD 0) d

/-- Whether an access writes. -/
def isWrite : Access → Bool
  | .read => false
  | .write _ => true
/-- The word that it writes. -/
def accessWord : Access → Option W64
  | .read => none
  | .write v => some v

/-! ## Queues -/

/-- A queue controller serves its contexts while a run is on, in the drain after it, and in STRANDED (R106, R180, R275). -/
def serving (d : Dev) : Bool := d.run.st = .running || d.run.st = .stopping || d.run.st = .stranded

/-! ## Design-memory rows -/

/-- A write to the HBM region table: the manager seat alone (R92). -/
def writeRegionEntry (m : Master) (entry : Nat) (size : Bool) (v : W64) (d : Dev) : Dev :=
  byWrite m (aRun (0x600 + 16 * entry + 8 * b2n size)) v (fun d => if byOneOf m [.manager] then regionTableWrite entry size v d else d) d
def accessHbm (m : Master) (a : Nat) (acc : Access) (d : Dev) : Dev := byAccess m (accessWord acc) a (hbmAcc a acc) d
def accessBank (m : Master) (p off : Nat) (acc : Access) (d : Dev) : Dev :=
  byAccess m (accessWord acc) (aBank p off) (bankAcc m p off acc) d
/-- Queue-context registers answer only once the tile's load is complete (R155). -/
def ctxReady (d : Dev) (p : Nat) : Bool := (tileOf d p).loaded
/-- A read of QCTX_STREAM; during a long operation it returns zero, removes nothing and is counted (R300). -/
def readStream (m : Master) (p q : Nat) (d : Dev) : Option W64 × Dev :=
  if !ctxReady d p then (none, d)
  else
    match m with
    | .seat s => if longOp d then (some 0, refuseSeat s d) else let (w, d) := streamRead p q d; (some w, d)
    | _ => let (w, d) := streamRead p q d; (some w, d)
/-- A write of QCTX_STREAM. -/
def writeStream (p q : Nat) (v : W64) (d : Dev) : Option W64 × Dev :=
  if !ctxReady d p then (none, d)
  else
    let (refused, d) := streamWrite p q v d
    (if refused then none else some 0, d)
/-- A write of BANK_OWNER: REQ_OWNER, and OWNER_REFUSED (Table 5.12). -/
def writeOwner (p b : Nat) (v : W64) (d : Dev) : Dev :=
  let d := if bit v 11 then updBank d p b fun B => { B with refused := false } else d
  requestOwner p b (ownerOf (fld v 9 8)) d

end Sys2Proof.Machine
end

