-- ==== Sys2Proof/Machine/Routes.lean ====
section
/-! DEFINITION. Channels and routes (R65 to R68, R383): who receives a channel, a mark or a link word, the routers on the way,
and the route and mark entries of Table 4.3. -/

namespace Sys2Proof.Machine

/-! ## Positions -/

/-- Rows before columns: the router after `a` on the way to `b` in one die's grid (R67). -/
def nextHop (a b : Nat) : Nat :=
  if a / 12 < b / 12 then a + 12 else if b / 12 < a / 12 then a - 12 else if a < b then a + 1 else a - 1
/-- The routers from a to b, both included; at most 21 hops. -/
def pathIn : Nat → Nat → Nat → List Nat
  | 0, a, _ => [a]
  | n + 1, a, b => if a = b then [a] else a :: pathIn n (nextHop a b) b
def pathLocal (a b : Nat) : List Nat := pathIn 21 a b
/-- The tile index, within die d, of its bridge to die e (R383). -/
def bridgeTo (d e : Nat) : Nat :=
  match if e < d then e else e - 1 with
  | 0 => 0
  | 1 => 6
  | _ => 11
/-- Die and index of the lane egress and ingress of a lane. -/
def lanePos (lane : Nat) : Nat × Nat := (lane / 256 % 4, 120 + lane % 256 / 32)
/-- Die and index of a TIO bank. -/
def bankPos (b : Nat) : Nat × Nat := (b / 2 % 4, 128 + b % 2)
def tilePos (p : Nat) : Nat × Nat := (p / 132, p % 132)

/-- One hop of a route: physical router, the direction it forwards to (0 west, 1 south, 2 east, 3 north), or 4 for its edge
port, or 5 where it delivers to its own tile. North is toward lower rows (log entry 22). -/
def dirOf (a b : Nat) : Nat := if b + 12 = a then 3 else if a + 12 = b then 1 else if b = a + 1 then 2 else 0
def legHops (die last : Nat) : List Nat → List (Nat × Nat)
  | [] => []
  | [a] => [(die * 132 + a, last)]
  | a :: b :: r => (die * 132 + a, dirOf a b) :: legHops die last (b :: r)
/-- The hops of a route from one position to another, its last hop being `last`. -/
def routeHops (src dst : Nat × Nat) (last : Nat) : List (Nat × Nat) :=
  if src.1 = dst.1 then legHops src.1 last (pathLocal src.2 dst.2)
  else legHops src.1 4 (pathLocal src.2 (bridgeTo src.1 dst.1)) ++
    legHops dst.1 last (pathLocal (bridgeTo dst.1 src.1) dst.2)

/-! ## Links: configuration and state (R246, R252, R280) -/

/-- LINK_CFG of a link; the pair link's stands for PAIR_CFG.ENABLE, eight lanes, the full rate, version 3 (R280). -/
def linkCfg (d : Dev) (l : Nat) : W64 :=
  if l = 1024 then word [fb 15 d.pair.enable, (11, 2, 1), (9, 2, 3), (4, 4, 3)] else (linkOf d l).cfg
def cfgOn (c : W64) : Bool := bit c 15
def cfgMode (c : W64) : Nat := fld c 14 13
def cfgRate (c : W64) : Nat := fld c 12 11
def cfgWidth (c : W64) : Nat := fld c 10 9
def cfgVmax (c : W64) : Nat := if fld c 7 4 = 2 then 2 else 3
def cfgLanes (c : W64) : Nat := 2 ^ cfgWidth c
/-- The members of a link. -/
def members (d : Dev) (l : Nat) : List Nat := (List.range (cfgLanes (linkCfg d l))).map (l + ·)
/-- The enabled link that a lane belongs to. -/
def linkOfLane? (d : Dev) (lane : Nat) : Option Nat :=
  if 1024 ≤ lane then (if d.pair.enable then some 1024 else none)
  else ([1, 2, 4, 8].map fun w => (w, lane - lane % w)).findSome? fun (w, l) =>
    if cfgOn (linkOf d l).cfg && cfgLanes (linkOf d l).cfg = w then some l else none
/-- The enabled links of the module. -/
def enabledLinks (d : Dev) : List Nat := (d.links.filter fun (l, E) => decide (l < 1024) && cfgOn E.cfg).map (·.1)

/-- A lane in UP, or in SCAN entered from UP (R265). -/
def laneUp (A : Lane) : Bool := A.st = .up || (A.st = .scan && !A.scanFromLoop)
/-- LINK_STATUS.STATE of lanes (R252): 0 DOWN, 1 TRAINING, 2 LOCKED, 3 UP. -/
def stateOf (ls : List Lane) : Nat :=
  if ls.any (·.st = .down) then 0
  else if ls.any (·.st = .training) then 1
  else if ls.all (·.st = .locked) then 2
  else if ls.all laneUp then 3
  else 0
/-- LINK_STATUS.STATE of an enabled link. -/
def linkState (d : Dev) (l : Nat) : Nat :=
  if cfgOn (linkCfg d l) then stateOf ((members d l).map (laneOf d)) else 0

/-! ## Receivers -/

/-- Every bound inbound port of the placed tiles: (tile, cluster, port, entry). -/
def allInPorts (d : Dev) : List (Nat × Nat × Nat × W64) :=
  (placedTiles d).flatMap fun (p, T) => (inPorts T).map fun (c, i, w) => (p, c, i, w)
/-- The ports bound to an on-module channel. -/
def portsOfCh (d : Dev) (ch : Nat) : List (Nat × Nat × Nat × W64) :=
  (allInPorts d).filter fun (_, _, _, w) => !inRemote w && inCh w = ch
/-- The ports bound to a link channel. -/
def portsOfLch (d : Dev) (lane lch : Nat) : List (Nat × Nat × Nat × W64) :=
  (allInPorts d).filter fun (_, _, _, w) => inRemote w && inLane w = lane && inCh w % 65536 = lch
/-- The tiles with a port of a key. -/
def tilesOfKey (d : Dev) (key : Nat) : List Nat :=
  (((allInPorts d).filter fun (_, _, _, w) => keyOf w = key).map (·.1)).eraseDups
/-- The links that an outbound port feeds: (lane, link channel number). -/
def linksOfPort (T : Tile) (c port : Nat) : List (Nat × Nat) :=
  (egressOf T).filterMap fun (lane, lch, src) => if src = c * 64 + port then some (lane, lch) else none
/-- The links that loaded egress and ingress entries use, ascending. -/
def usedLinks (d : Dev) : List Nat :=
  let e := (placedTiles d).flatMap fun (_, T) => (egressOf T).map (·.1)
  let i := (allInPorts d).filterMap fun (_, _, _, w) => if inRemote w then some (inLane w) else none
  (e ++ i).foldl (fun l x => insertNat x l) []
/-- The module's partner links, ascending: every link that an entry uses, and every other enabled EXCHANGE link that is UP or has been
UP since its enable or its last LINK_CTRL.DOWN, so also one in a retrain (R81, R83; log entry 9). -/
def partnerLinks (d : Dev) : List Nat :=
  ((enabledLinks d).filter fun l => cfgMode (linkCfg d l) = 0 && (linkState d l = 3 || (linkOf d l).everUp)).foldl
    (fun l x => insertNat x l) (usedLinks d)
/-- The keys of a link's horizon group (R72): the virtual clusters whose channels use the link, with their tiles. -/
def linkGroup (d : Dev) (lane : Nat) : List (Nat × Nat) :=
  ((placedTiles d).flatMap fun (p, T) => (egressOf T).filterMap fun (l, _, src) =>
    if l = lane then some (T.vtile * 16 + src / 64, p) else none).eraseDups
/-- Whether the channel of an outbound port leaves its tile, or goes to a TIO bank (R70, R88). -/
def leavesTile (d : Dev) (p c port : Nat) : Bool :=
  let T := tileOf d p
  let k := (outEntry T c port).1
  k = 2 || k = 3 || (k = 1 && (!(linksOfPort T c port).isEmpty ||
    (portsOfCh d (channelNo T.vtile c port)).any fun (q, _, _, _) => q ≠ p))
/-- The mark steps of a cluster, ascending (R70). -/
def markSteps (d : Dev) (p c : Nat) : List Nat :=
  ((sends (tileOf d p) c d.image.l).filter fun (port, _) => leavesTile d p c port).foldl (fun l x => insertNat x.2 l) []
/-- The pins that a cluster drives in a bank: (pin, KIND, SEND step). -/
def drivenPins (d : Dev) (p c : Nat) : List (Nat × Nat × Nat) :=
  let T := tileOf d p
  (sends T c d.image.l).filterMap fun (port, s) =>
    let (k, pin) := outEntry T c port
    if k = 2 || k = 3 then some (pin, k, s) else none

/-! ## Route and mark entries (Table 4.3) -/

/-- The route hops of every channel on the mesh: (channel, router, hop, clusters delivered). Channels that never leave their
tile use no router; an ingress channel shows the low 19 bits of lane × 65,536 + LCH, and entries stand in ascending order (log
entries 22, 88). -/
def chanHops (d : Dev) : List (Nat × Nat × Nat × Nat) :=
  let ports := allInPorts d
  let onm := (placedTiles d).flatMap fun (p, T) => (outPorts T).flatMap fun (c, port, k, pin) =>
    let ch := channelNo T.vtile c port
    let tiles := ports.filterMap fun (q, c', _, w) =>
      if k = 1 && !inRemote w && inCh w = ch && q ≠ p then some ((routeHops (tilePos p) (tilePos q) 5).map fun (r, h) =>
        (ch, r, h, if h = 5 then 2 ^ c' else 0)) else none
    let links := (linksOfPort T c port).map fun (lane, _) =>
      (routeHops (tilePos p) (lanePos lane) 4).map fun (r, h) => (ch, r, h, 0)
    let pins := if k = 2 || k = 3 then [(routeHops (tilePos p) (bankPos (pin / 32)) 4).map fun (r, h) => (ch, r, h, 0)] else []
    (tiles ++ links ++ pins).flatten
  let off := ports.flatMap fun (q, c', _, w) =>
    if inRemote w then (routeHops (lanePos (inLane w)) (tilePos q) 5).map fun (r, h) =>
      (2 ^ 19 + inLane w * 65536 + inCh w % 65536, r, h, if h = 5 then 2 ^ c' else 0) else []
  onm ++ off

/-- The hops of every key's marks: (key, router, hop, clusters). -/
def keyHops (d : Dev) : List (Nat × Nat × Nat × Nat) :=
  let ports := allInPorts d
  let onm := (placedTiles d).flatMap fun (p, T) => (List.range 16).flatMap fun c =>
    let key := T.vtile * 16 + c
    let tiles := ports.filterMap fun (q, c', _, w) =>
      if keyOf w = key && q ≠ p then some ((routeHops (tilePos p) (tilePos q) 5).map fun (r, h) =>
        (key, r, h, if h = 5 then 2 ^ c' else 0)) else none
    let links := ((egressOf T).filter fun (_, _, src) => src / 64 = c).map fun (lane, _, _) =>
      (routeHops (tilePos p) (lanePos lane) 4).map fun (r, h) => (key, r, h, 0)
    let pins := (drivenPins d p c).map fun (pin, _, _) =>
      (routeHops (tilePos p) (bankPos (pin / 32)) 4).map fun (r, h) => (key, r, h, 0)
    (tiles ++ links ++ pins).flatten
  let off := ports.flatMap fun (q, c', _, w) =>
    if inRemote w then (routeHops (lanePos (inLane w)) (tilePos q) 5).map fun (r, h) =>
      (keyOf w, r, h, if h = 5 then 2 ^ c' else 0) else []
  onm ++ off

/-- The entries of a router from the hops: per channel or key, ascending, the OR of CLUSTERS, DIR and EDGE. -/
def routerEntries (hops : List (Nat × Nat × Nat × Nat)) (p : Nat) : List (Nat × Nat) :=
  let mine := hops.filter fun (_, r, _, _) => r = p
  let ids := mine.foldl (fun l x => insertNat x.1 l) []
  ids.map fun i => (i, (mine.filter fun x => x.1 = i).foldl (fun acc (_, _, h, cl) =>
    acc ||| (cl <<< 28) ||| (if h ≤ 3 then 1 <<< (24 + h) else if h = 4 then 1 <<< 23 else 0)) 0)
def routeWord (e : Nat × Nat) : W64 := word [fb 63 true, (44, 19, e.1), (0, 44, e.2)]
def markWord (e : Nat × Nat) : W64 := word [fb 63 true, (44, 14, e.1), (0, 44, e.2)]

/-- The lowest router that needs more than its entries (R68), if any. -/
def overRouter (d : Dev) : Option Nat :=
  let ch := chanHops d
  let ks := keyHops d
  (List.range 528).find? fun p =>
    decide (4096 < (routerEntries ch p).length) || decide (512 < (routerEntries ks p).length)

/-- The loader writes the route and mark entries of every router (R151). -/
def writeRoutes (d : Dev) : Dev :=
  let ch := chanHops d
  let ks := keyHops d
  (List.range 528).foldl (fun d p =>
    updTile d p fun T =>
      { T with routes := ((routerEntries ch p).zipIdx).map (fun (e, i) => (i, routeWord e))
               markRoutes := ((routerEntries ks p).zipIdx).map (fun (e, i) => (i, markWord e)) }) d

/-! ## Isolation cells (R84, R144) -/

/-- The router of the isolation cell that drops a word on its way into a region: the first router of the destination's region
on the route. Routers of a held region pass words that go elsewhere (log entry 88). -/
def cellTile (d : Dev) (src dst : Nat × Nat) : Nat :=
  let reg := tileRegion d.fuse (dst.1 * 132 + dst.2)
  match (routeHops src dst 5).find? fun (r, _) => tileRegion d.fuse r = reg with
  | some (r, _) => r
  | none => dst.1 * 132 + dst.2

/-- The ports of a router: mesh neighbours inside the die, and whether it has an edge port (R383). -/
def neighbours (p : Nat) : List Nat :=
  let l := p % 132
  let b := p / 132 * 132
  (if 12 ≤ l then [b + l - 12] else []) ++ (if l % 12 < 11 then [b + l + 1] else []) ++
    (if l + 12 < 132 then [b + l + 12] else []) ++ (if l % 12 = 0 then [] else [b + l - 1])
def hasEdge (p : Nat) : Bool :=
  let l := p % 132
  l = 0 || l = 6 || l = 11 || (decide (120 ≤ l) && decide (l ≤ 129))
/-- REGION_STATE.CELLS of a region (R144). -/
def armedCells (d : Dev) (r : Nat) : Nat :=
  if (regionOf d r).st = .active then 0
  else ((regionTiles d.fuse r).map fun p =>
    b2n (hasEdge p) + ((neighbours p).filter fun q => tileRegion d.fuse q ≠ r).length).sum

end Sys2Proof.Machine
end

