-- ==== Sys2Proof/Machine/Exchange.lean ====
section
/-! DEFINITION. The exchange (chapter 4): tokens, marks, resolution, the exchange faults, links, end-of-cycle markers. -/

namespace Sys2Proof.Machine

/-! ## Exchange words (Table 4.4) -/

def parityOf (n : Nat) : Bool := n % 2 = 1
def wUpdate (e v rf : Bool) (step low : Nat) : W64 :=
  word [(60, 4, 1), fb 59 e, fb 58 v, fb 57 rf, (38, 10, step), (0, 19, low)]
def wMark (e : Bool) (h key : Nat) : W64 := word [(60, 4, 2), fb 59 e, (38, 10, h), (0, 14, key)]
def wLinkMark (e : Bool) (h : Nat) : W64 := word [(60, 4, 3), fb 59 e, (38, 10, h)]
def wEoc (e : Bool) (modid cycle : Nat) : W64 := word [(60, 4, 4), fb 59 e, (32, 6, modid), (0, 32, cycle)]
def wKind (w : W64) : Nat := fld w 63 60
def wE (w : W64) : Bool := bit w 59
def wValue (w : W64) : Bool := bit w 58
def wRf (w : W64) : Bool := bit w 57
def wStep (w : W64) : Nat := fld w 47 38

/-! ## Ports (R73 to R79) -/

def portOf (C : Cluster) (i : Nat) : InPort := tget InPort.reset C.ports i
def updPort (d : Dev) (p c i : Nat) (f : InPort → InPort) : Dev :=
  updCluster d p c fun C => { C with ports := tupd InPort.reset C.ports i f }

/-- The horizon of a key at a tile, plus one: 0 stands for −1 (Table 4.1). A cluster of the own tile shows the step it has
completed; a source whose region is held shows L − 1 (R84). -/
def horizonOf (d : Dev) (p key : Nat) : Nat :=
  let T := tileOf d p
  if key < 0x2000 ∧ key / 16 = T.vtile then
    let C := clusterOf T (key % 16)
    if C.done then d.image.l else C.step
  else if key < 0x2000 then
    match tileOfV? d (key / 16) with
    | some q => if tileActive d q then tget 0 T.horizon key else d.image.l
    | none => tget 0 T.horizon key
  else tget 0 T.horizon key

/-- Whether an inbound port is resolved; a port with no channel bound always is (R73, Table 2.4). -/
def portResolved (d : Dev) (p c i : Nat) : Bool :=
  let w := inEntry (tileOf d p) c i
  !inBound w || decide (inSc w < horizonOf d p (keyOf w))

/-- An exchange fault (R77 to R79): `cont` for CONTENTION. -/
def raiseExch (cont : Bool) (p c i sc step : Nat) (d : Dev) : Dev :=
  let T := tileOf d p
  let first := !(d.exch.lateBit || d.exch.contBit)
  let d := if first then
      { d with exch := { d.exch with
          place := word [(46, 10, sc), (36, 10, step), (27, 9, T.vtile), (23, 4, c), (17, 6, i), fb 16 cont]
          cycle := curCycle d } }
    else d
  let d := { d with exch := { d.exch with lateBit := d.exch.lateBit || !cont, contBit := d.exch.contBit || cont } }
  let d := updTile d p fun T => if cont then { T with contention := T.contention + 1 } else { T with late := T.late + 1 }
  registerStop (if cont then cCONTENTION else cHORIZON_LATE)
    (logEntry (if cont then 0x0321 else 0x0320) (some (d.exch.place, w64 d.exch.cycle)) d)

/-- An UPDATE reaches an inbound port of an ACTIVE region (R74). -/
def takeToken (p c i : Nat) (w : W64) (d : Dev) : Dev :=
  let P := portOf (clusterOf (tileOf d p) c) i
  let sc := inSc (inEntry (tileOf d p) c i)
  let count (d : Dev) : Dev := updTile d p fun T => { T with tokensIn := T.tokensIn + 1 }
  if wRf w then
    count (if P.got then d else updPort d p c i fun P => { P with value := wValue w })
  else if P.got then raiseExch true p c i sc (wStep w) d
  else
    let d := count d
    if sc < wStep w then
      raiseExch false p c i sc (wStep w) (updPort d p c i fun P => { P with next := some (wValue w), got := true })
    else updPort d p c i fun P => { P with value := wValue w, got := true }

/-- An UPDATE reaches a pin of a TIO bank (R88, R89). -/
def takePin (pin : Nat) (enable : Bool) (v : Bool) (d : Dev) : Dev :=
  { d with tio := if enable then { d.tio with en := setBit d.tio.en pin v, resE := setBit d.tio.resE pin true }
      else { d.tio with val := setBit d.tio.val pin v, resV := setBit d.tio.resV pin true } }

/-- A mark reaches a tile: the horizon of its key rises (R73). -/
def takeMark (p key h : Nat) (d : Dev) : Dev :=
  updTile d p fun T => { T with horizon := tupd 0 T.horizon key (max (h + 1)) }

/-- A mark reaches a TIO bank: the pins of that cluster with a SEND step at or below h are resolved (R88). -/
def takeBankMark (b key h : Nat) (d : Dev) : Dev :=
  match tileOfV? d (key / 16) with
  | none => d
  | some p =>
    (drivenPins d p (key % 16)).foldl (fun d (pin, k, s) =>
      if pin / 32 = b ∧ s ≤ h then
        { d with tio := if k = 3 then { d.tio with resE := setBit d.tio.resE pin true }
            else { d.tio with resV := setBit d.tio.resV pin true } }
      else d) d

/-! ## Sending -/

/-- The position from which words of a key come. -/
def keyPos (d : Dev) (key : Nat) : Nat × Nat :=
  if key < 0x2000 then match tileOfV? d (key / 16) with
    | some p => tilePos p
    | none => (0, 0)
  else lanePos (key - 0x2000)

/-- The tile to which a word of the mesh goes, if it goes to a tile. -/
def flitTile : Flit → Option Nat
  | .upd (.port p _ _) _ _ => some p
  | .mark (.tile p) _ _ => some p
  | _ => none
/-- Key and content of a word of the mesh. -/
def flitBody : Flit → Nat × W64
  | .upd _ key w => (key, w)
  | .mark _ key w => (key, w)
/-- The isolation cell at which a word of the mesh is dropped, if its tile's region is held. -/
def dropCell? (d : Dev) (f : Flit) : Option Nat :=
  match flitTile f with
  | none => none
  | some p => if tileActive d p then none else some (cellTile d (keyPos d (flitBody f).1) (tilePos p))
/-- An armed cell drops a word and counts it once, for all the places behind the cell to which it goes (R84). -/
def dropAtBorder (f : Flit) (d : Dev) : Dev :=
  match dropCell? d f with
  | none => d
  | some cell =>
    let mesh := d.exch.mesh.filter fun g => flitBody g ≠ flitBody f || dropCell? d g ≠ some cell
    updTile { d with exch := { d.exch with mesh := mesh } } cell fun T => { T with borderDropped := T.borderDropped + 1 }

def meshPut (f : Flit) (d : Dev) : Dev := { d with exch := { d.exch with mesh := d.exch.mesh ++ [f] } }
/-- A mark joins at the tail and removes any unsent mark of the same destination, key and E (R72). -/
def meshMark (dest : MarkDest) (key : Nat) (w : W64) (d : Dev) : Dev :=
  let keep : Flit → Bool
    | .mark dst k w' => !(dst == dest && k = key && wE w' = wE w)
    | .upd .. => true
  { d with exch := { d.exch with mesh := d.exch.mesh.filter keep ++ [.mark dest key w] } }

def fin (n : Nat) {m : Nat} [NeZero m] : Fin m := Fin.ofNat m n

/-- Words for the exchange join a link's egress; a link in STREAM mode is never an exchange link (R261). -/
def toEgress (f : List W64 → List W64) (E : Link) : Link := if cfgMode E.cfg = 1 then E else { E with egress := f E.egress }
/-- A token leaves on a link; the cell of its channel knows the last value sent, and the one before this design cycle (R84). -/
def linkToken (lane lch : Nat) (w : W64) (d : Dev) : Dev :=
  updLink { d with exch := { d.exch with sent := tset 0 d.exch.sent (lane * 65536 + lch) (1 + b2n (wValue w)) } } lane <|
    toEgress (· ++ [w])

/-- A cluster sends a token on an outbound port (R38, R59, R65, R88). Ports of the own tile take it at once, since the step
lines show a step only after its tokens have reached the crossbar (R71). -/
def sendToken (p c port step : Nat) (v : Bool) (d : Dev) : Dev :=
  let T := tileOf d p
  let ch := channelNo T.vtile c port
  let e := parityOf (curCycle d)
  let key := T.vtile * 16 + c
  let d := updTile d p fun T => { T with tokensOut := T.tokensOut + 1 }
  match (outEntry T c port).1 with
  | 1 =>
    let w := wUpdate e v false step ch
    let d := (portsOfCh d ch).foldl (fun d (q, c', i, _) =>
      if q = p then takeToken q c' i w d else meshPut (.upd (.port (fin q) (fin c') (fin i)) key w) d) d
    (linksOfPort T c port).foldl (fun d (lane, lch) =>
      linkToken lane lch (wUpdate e v false step lch) d) d
  | 2 => meshPut (.upd (.pinValue (fin (outEntry T c port).2)) key (wUpdate e v false step ch)) d
  | 3 => meshPut (.upd (.pinEnable (fin (outEntry T c port).2)) key (wUpdate e v false step ch)) d
  | _ => d

/-- The link horizon, plus one: the minimum over the group of the latest h received (R72); a held source counts as L − 1
(R84), and so does an empty group (log entry 88). -/
def groupHorizon (d : Dev) (lane : Nat) : Nat :=
  let E := linkOf d lane
  (linkGroup d lane).foldl (fun m (key, p) =>
    min m (if tileActive d p then tget 0 E.horizons key else d.image.l)) d.image.l

/-- A LINK_MARK is put at the tail of the link whenever the link horizon rises; an unsent one is replaced (R72). -/
def raiseLink (lane : Nat) (d : Dev) : Dev :=
  let h := groupHorizon d lane
  let E := linkOf d lane
  if h ≤ E.linkH then d
  else updLink d lane fun E => { toEgress (fun l => l.filter (fun w => !(wKind w = 3 && wE w = parityOf (curCycle d)))
    ++ [wLinkMark (parityOf (curCycle d)) (h - 1)]) E with linkH := h }

/-- A cluster emits a MARK with value h for its key (R70): to the tiles with a port of the key, to the TIO banks it drives, to
the horizon groups of its links. -/
def emitMark (p c h : Nat) (d : Dev) : Dev :=
  let T := tileOf d p
  let key := T.vtile * 16 + c
  let w := wMark (parityOf (curCycle d)) h key
  let d := updTile d p fun T => { T with marksOut := T.marksOut + 1 }
  let d := ((tilesOfKey d key).filter (· ≠ p)).foldl (fun d q => meshMark (.tile (fin q)) key w d) d
  let d := (((drivenPins d p c).map fun x => x.1 / 32).eraseDups).foldl (fun d b => meshMark (.bank (fin b)) key w d) d
  (((egressOf T).filterMap fun (lane, _, src) => if src / 64 = c then some lane else none).eraseDups).foldl (fun d lane =>
    raiseLink lane (updLink d lane fun E => { E with horizons := tupd 0 E.horizons key (max (h + 1)) })) d

/-- The mark with which a cluster begins a design cycle, if it emits one. -/
def beginMark (p c : Nat) (d : Dev) : Dev :=
  match markSteps d p c with
  | [] => d
  | m :: _ => if m = 0 then d else emitMark p c (m - 1) d
/-- The mark after step s, if s is a mark step. -/
def stepMark (p c s : Nat) (d : Dev) : Dev :=
  let ms := markSteps d p c
  if ms.contains s then
    emitMark p c (match (ms.filter (s < ·)).head? with
      | some m => m - 1
      | none => d.image.l - 1) d
  else d

/-! ## Arrival -/

/-- An UPDATE in flight to a destination, the oldest first. -/
def isUpd (dest : UpdDest) : Flit → Bool
  | .upd dst _ _ => dst == dest
  | .mark .. => false
def isMark (dest : MarkDest) (key : Nat) : Flit → Bool
  | .mark dst k _ => dst == dest && k = key
  | .upd .. => false
/-- A destination lies at a mark's destination. -/
def under (u : UpdDest) (m : MarkDest) : Bool :=
  match u, m with
  | .port p _ _, .tile q => p == q
  | .pinValue n, .bank b => n.val / 32 = b.val
  | .pinEnable n, .bank b => n.val / 32 = b.val
  | _, _ => false
/-- A token that must precede a mark (R71): same key and place, STEP at or below its h. -/
def precedes (dest : MarkDest) (key h : Nat) : Flit → Bool
  | .upd dst k w => under dst dest && k = key && decide (wStep w ≤ h)
  | .mark .. => false

def removeAt (i : Nat) (d : Dev) : Dev := { d with exch := { d.exch with mesh := d.exch.mesh.eraseIdx i } }

/-- One word of the mesh is delivered. -/
def deliver (f : Flit) (d : Dev) : Dev :=
  match f with
  | .upd (.port p c i) _ w => if tileActive d p then takeToken p c i w d else dropAtBorder f d
  | .upd (.pinValue n) _ w => takePin n false (wValue w) d
  | .upd (.pinEnable n) _ w => takePin n true (wValue w) d
  | .mark (.tile p) key w =>
    if tileActive d p then takeMark p key (wStep w) d else dropAtBorder f d
  | .mark (.bank b) key w => takeBankMark b key (wStep w) d

/-- The first words of the mesh, at most n, arrive in order. -/
def deliverFirst : Nat → Dev → Dev
  | 0, d => d
  | n + 1, d => match d.exch.mesh with
    | [] => d
    | f :: r => deliverFirst n (deliver f { d with exch := { d.exch with mesh := r } })

/-- Every word still on the mesh arrives: what a design cycle sends reaches its place before the commit (R19; log entry 10). -/
def drainMesh (d : Dev) : Dev := deliverFirst d.exch.mesh.length d

/-! ## Links (R80 to R82) -/

/-- The words of the current design cycle may pass from a link into the module: its cycle is open and the parity matches (R82,
R276). -/
def admits (d : Dev) (w : W64) : Bool := cycleOpen d && (wE w == parityOf (curCycle d))
/-- The received words of a link in EXCHANGE mode; the blocks of a STREAM link are no exchange words (R261). -/
def exchWords (d : Dev) (lane : Nat) : List W64 := if cfgMode (linkCfg d lane) = 0 then (linkOf d lane).rx else []
/-- Words held in the early buffer: those that may not pass yet (R82, R276). -/
def earlyWords (d : Dev) (E : Link) : Nat := (E.rx.filter fun w => !admits d w).length

/-- An UPDATE of a link passes its ingress entry (R79, R80); the shadow keeps its VALUE (R84). -/
def ingress (lane : Nat) (w : W64) (d : Dev) : Dev :=
  let lch := fld w 15 0
  match portsOfLch d lane lch with
  | [] => updLink d lane fun E => { E with unrouted := E.unrouted + 1 }
  | ports =>
    let d := { d with exch := { d.exch with shadow := tset 0 d.exch.shadow (lane * 65536 + lch) (1 + b2n (wValue w)) } }
    ports.foldl (fun d (p, c, i, _) => meshPut (.upd (.port (fin p) (fin c) (fin i)) (0x2000 + lane) w) d) d

/-- A link's mark reaches the tiles with ports of the link. -/
def linkMark (lane h : Nat) (d : Dev) : Dev :=
  (tilesOfKey d (0x2000 + lane)).foldl (fun d p =>
    meshMark (.tile (fin p)) (0x2000 + lane) (wMark (parityOf (curCycle d)) h (0x2000 + lane)) d) d

/-- The oldest received word of a link, other than an EOC, passes into the module. A word of a KIND that is not used stays (log
entry 88). -/
def linkWord (lane : Nat) (d : Dev) : Dev :=
  match exchWords d lane with
  | [] => d
  | w :: rest =>
    if !admits d w then d
    else
      let d' := updLink d lane fun E => { E with rx := rest, freed := E.freed + 1 }
      match wKind w with
      | 1 => ingress lane w d'
      | 3 => linkMark lane (wStep w) d'
      | _ => d

/-- A received EOC (R81). -/
def eocReceive (lane : Nat) (d : Dev) : Dev :=
  match exchWords d lane with
  | [] => d
  | w :: rest =>
    if wKind w ≠ 4 ∨ !admits d w then d
    else
      let d := updLink d lane fun E => { E with rx := rest, freed := E.freed + 1 }
      if fld w 31 0 = curCycle d % 2 ^ 32 then
        let d := updLink d lane fun E => { E with eocIn := true, eocCycle := fld w 31 0 }
        linkMark lane (d.image.l - 1) { d with exch := { d.exch with lastLink := lane } }
      else updLink d lane fun E => { E with mismatch := E.mismatch + 1 }

/-- Every cluster of every ACTIVE region has finished step L − 1. -/
def allDone (d : Dev) : Bool :=
  (activeTiles d).all fun (_, T) => (List.range 16).all fun c => (clusterOf T c).done
/-- Every pin that an ACTIVE region drives is resolved (R81, R88). -/
def pinsResolved (d : Dev) : Bool :=
  (activeTiles d).all fun (p, _) => (List.range 16).all fun c => (drivenPins d p c).all fun (pin, k, _) =>
    if k = 3 then d.tio.resE.getLsbD pin else d.tio.resV.getLsbD pin

/-- EOC on every partner link (R81). -/
def eocSend (d : Dev) : Dev :=
  if cycleOpen d && allDone d && pinsResolved d then
    (partnerLinks d).foldl (fun d lane => updLink d lane fun E =>
      if E.eocSent then E
      else { toEgress (· ++ [wEoc (parityOf (curCycle d)) d.fuse.modid.toNat (curCycle d)]) E with eocSent := true }) d
  else d

/-- Whether the barrier lacks no partner's marker, and this module has sent its own. -/
def markersIn (d : Dev) : Bool := (partnerLinks d).all fun l => (linkOf d l).eocIn && (linkOf d l).eocSent

/-! ## The barrier's part -/

/-- Table 2.9 order 5 at the ports: late values take effect, horizons and markers start again (R73, R74). -/
def portBarrier (P : InPort) : InPort :=
  let v := P.next.getD P.value
  { value := v, next := none, got := false, old := v }
def exchBarrier (d : Dev) : Dev :=
  { d with
    tiles := (activeTiles d).foldl (fun ts (p, _) => tupd Tile.reset ts p fun T =>
        { T with horizon := []
                 clusters := (List.range 16).foldl (fun cs c => tupd Cluster.reset cs c fun C =>
                   { C with ports := (C.ports.map fun (i, P) => (i, portBarrier P)).filter fun (_, P) => P ≠ InPort.reset })
                   T.clusters }) d.tiles
    links := (d.links.map fun (l, E) =>
        (l, { E with horizons := [], linkH := 0, eocIn := false, eocSent := false })).filter fun (_, E) => E ≠ Link.reset
    exch := { d.exch with sentOld := d.exch.sent }
    tio := { d.tio with resV := 0, resE := 0 } }

/-- The refresh tokens that a region which left ACTIVE in a design cycle never committed owes its receivers (R84): the ports whose
value differs from the committed one, and the link channels whose last token does. A channel that never sent is at 0 (R74). -/
def oweRefresh (r : Nat) (d : Dev) : Dev :=
  let owed := (allInPorts d).filterMap fun (p, c, i, w) =>
    let P := portOf (clusterOf (tileOf d p) c) i
    if !inRemote w && tileRegion d.fuse p ≠ r && P.value ≠ P.old &&
        (match tileOfV? d (inCh w / 1024) with
          | some q => tileRegion d.fuse q = r
          | none => false)
    then some (p, c, i, P.old) else none
  let links := ((placedTiles d).filter fun (q, _) => tileRegion d.fuse q = r).flatMap fun (_, T) =>
    (egressOf T).filterMap fun (lane, lch, _) =>
      let old := decide (tget 0 d.exch.sentOld (lane * 65536 + lch) = 2)
      let new := tget 0 d.exch.sent (lane * 65536 + lch)
      if new ≠ 0 && decide (new = 2) ≠ old then some (lane, lch, old) else none
  { d with exch := { d.exch with refresh := d.exch.refresh ++ owed, refreshLink := d.exch.refreshLink ++ links } }

/-- The first design cycle that the rest runs: the owed refresh tokens arrive. -/
def sendOwed (d : Dev) : Dev :=
  let e := parityOf (curCycle d)
  let d' := d.exch.refresh.foldl (fun d (p, c, i, v) => if tileActive d p then takeToken p c i (wUpdate e v true 0 0) d else d)
    { d with exch := { d.exch with refresh := [], refreshLink := [] } }
  d.exch.refreshLink.foldl (fun d (lane, lch, v) => linkToken lane lch (wUpdate e v true 0 lch) d) d'

/-- The refresh tokens of the lane ingresses for rejoining regions (R85): at the ports in those regions alone, where a route also
branches outside them, and none for an entry that has had no value (log entry 88). -/
def injectRefresh (regions : List Nat) (d : Dev) : Dev :=
  (allInPorts d).foldl (fun d (p, c, i, w) =>
    let s := tget 0 d.exch.shadow (inLane w * 65536 + inCh w % 65536)
    if inRemote w && regions.contains (tileRegion d.fuse p) && s ≠ 0 then
      takeToken p c i (wUpdate (parityOf (curCycle d)) (s = 2) true 0 (inCh w % 65536)) d
    else d) d

/-! ## Commands -/

/-- R74: the oldest UPDATE on its way to a destination arrives. -/
def updateArrives (dest : UpdDest) (d : Dev) : Dev :=
  match d.exch.mesh.findIdx? (isUpd dest) with
  | none => d
  | some i => match d.exch.mesh[i]? with
    | some f => deliver f (removeAt i d)
    | none => d

/-- R73: a mark arrives, once the tokens that it covers have (R71). -/
def markArrives (dest : MarkDest) (key : Nat) (d : Dev) : Dev :=
  match d.exch.mesh.findIdx? (isMark dest key) with
  | none => d
  | some i => match d.exch.mesh[i]? with
    | some (.mark m k w) =>
      if (d.exch.mesh.take i).any (precedes dest key (wStep w)) then d else deliver (.mark m k w) (removeAt i d)
    | _ => d

def execUpdateArrival (dest : UpdDest) (s : State) : Host.Outcome State Fault Refusal := lift (updateArrives dest) s
def execMarkArrival (dest : MarkDest) (key : Nat) (s : State) : Host.Outcome State Fault Refusal := lift (markArrives dest key) s
def execLinkWordRx (lane : Fin 1024) (s : State) : Host.Outcome State Fault Refusal := lift (linkWord lane) s
def execEocSend (s : State) : Host.Outcome State Fault Refusal := lift eocSend s
def execEocReceive (lane : Fin 1024) (s : State) : Host.Outcome State Fault Refusal := lift (eocReceive lane) s

end Sys2Proof.Machine
end

