-- ==== Sys2Proof/Machine/RunOps.lean ====
section
/-! DEFINITION. Operations of run control that many commands share: finishing a mailbox command, leaving a design cycle
unfinished, settling, faults, forced stops, an uncorrectable fetch, the start of a design cycle. -/

namespace Sys2Proof.Machine

/-! ## Mailbox responses (R297, R298) -/

/-- Groups of bytes of a relayed response: 31 words a message (R281). -/
def chunks : Nat → List W64 → List (List W64)
  | 0, _ => []
  | n + 1, l => if l.length ≤ 31 then [l] else l.take 31 :: chunks n (l.drop 31)
/-- The messages that carry words over the pair link, 31 words each (Table 13.3). -/
def relayMessages (kind seat : Nat) (ws : List W64) : List (List W64) :=
  let cs := chunks 10 ws
  cs.zipIdx.map fun (l, i) =>
    word [(56, 8, kind), (54, 2, seat), fb 53 (i + 1 = cs.length), (0, 16, 248 * i)] :: l

def updPair (f : Pair → Pair) (d : Dev) : Dev := { d with pair := f d.pair }
/-- A message that waits for the pair link. -/
def sendPair (l : List (List W64)) (d : Dev) : Dev := updPair (fun P => { P with outbox := P.outbox ++ l }) d
/-- A message that a detached twin would not take is absorbed, and counts (R286). -/
def sendTwin (l : List (List W64)) (d : Dev) : Dev :=
  if d.pair.twinDetached then updPair (fun P => { P with absorbed := P.absorbed + w64 l.length }) d else sendPair l d

/-- The bytes of a response: header and data, in the form of the command. -/
def responseBytes (c : Cmd) (reason : Nat) (data : List W64) : List Byte :=
  let n := 8 * data.length
  (if c.v1 then bytesOf 4 (reason * 65536 + n) else bytesOf 8 ((reason * 65536 + n) * 2 ^ 32 + c.tag * 65536))
    ++ bytesOfWords data

/-- A command is finished: its response is written, or goes back to the twin; RING clears (R298). A response that an FLR
discarded changes the buffers no more (R292). -/
def putResponse (c : Cmd) (reason : Nat) (data : List W64) (d : Dev) : Dev :=
  let b := responseBytes c reason data
  if c.relayed then sendTwin (relayMessages 5 (seatNo c.seat) (wordsOf b)) d
  else if (seatOf d.host c.seat).discard then updSeat d c.seat fun S => { S with ring := false, exec := false, discard := false }
  else updSeat d c.seat fun S =>
    { S with rspBuf := mwriteBytes S.rspBuf 0 b, lastReason := reason, lastTag := c.tag, done := true, ring := false
             exec := false }

/-- The same; a non-zero REASON is a refusal or fault, which the log records (R311). -/
def respond (c : Cmd) (reason : Nat) (data : List W64) (d : Dev) : Dev :=
  putResponse c reason data (if reason = 0 then d else logEntry reason none d)

/-- Parameter word i of a command, counted from 1. -/
def Cmd.par (c : Cmd) (i : Nat) : W64 := c.params.getD (i - 1) 0

/-- Fovia executes a command: with service core 0 clocked (R348), not on the way out of a power state (R359), nor while an earlier
command is still executing (R298). -/
def foviaFree (d : Dev) : Bool := d.host.held = [] && d.host.longCmd = none && d.clk.pw ≠ 2 && svcOn d.clk
/-- A command that goes on after this step without being a long operation (R298). -/
def holdCmd (c : Cmd) (d : Dev) : Dev := { d with host := { d.host with held := [c] } }
/-- It is finished. -/
def finishHeld (op code : Nat) (data : List W64) (d : Dev) : Dev :=
  match d.host.held with
  | c :: _ => if c.opcode = op then respond c code data { d with host := { d.host with held := [] } } else d
  | [] => d

/-- A long operation starts; its kind and seat show from the acceptance of its command (R300). -/
def startLong (kind : Nat) (c : Cmd) (d : Dev) : Dev :=
  { d with host := { d.host with longKind := kind, longSeat := c.seat, longCmd := some c } }

/-- The long operation that goes on when a command's has ended: a stream that passes on lanes (R300). -/
def restKind (d : Dev) : Nat := if d.ld.strLanes && d.ld.strActive then 3 else 0
/-- The long operation ends with its response (R300), which `put` writes. -/
def endLongBy (put : Cmd → Nat → List W64 → Dev → Dev) (reason : Nat) (data : List W64) (d : Dev) : Dev :=
  let host (d : Dev) : Dev := { d with host := { d.host with
    longKind := restKind d, longSeat := if restKind d = 3 then .manager else d.host.longSeat, longCmd := none } }
  let d := if d.host.longKind = 4 then { d with trail := { d.trail with reason := reason } } else d
  match d.host.longCmd with
  | some c => host (put c reason data d)
  | none => host d
/-- The same; the log records a refusal or fault. -/
def endLong : Nat → List W64 → Dev → Dev := endLongBy respond

/-- LOAD_STATUS, LOAD_DETAIL and LOAD_FRAMES cleared (R166). -/
def clearStatus (L : Loader) : Loader :=
  { L with reason := 0, statusPartial := false, statusSigned := false, abortLate := false, phaseShown := 0, refused := false
           done := false, detail := 0, expected := 0, framesDone := 0, path := 0 }
/-- PATH of a load. -/
def pathCode (stream : Bool) (seat : Seat) : Nat := if stream then 3 else if seat = .board then 2 else 1
/-- A LOAD or STREAM_LOAD command is refused (R166, R303, Table 7.3): its code and LOAD_DETAIL go into the registers and into the
response. A load of a stream that is under way goes on. -/
def refuseLoadCmd (stream : Bool) (seat : Seat) (code : Nat) (d : Dev) : Dev :=
  let d := updLd (fun L => { clearStatus L with
    reason := code, refused := true, path := pathCode stream seat }) d
  endLong code [d.ld.detail] (pulse 0x012 d)
/-- The response of a command that failed a check before its own; a refused load shows in LOAD_STATUS too (R166), a
refused REWIND in TRAIL_STATUS.REASON (R199). -/
def refuseCmd (c : Cmd) (code : Nat) (d : Dev) : Dev :=
  let d := if code = 0x0103 then denySeat c.seat d else d
  let d := if c.opcode = 0x0401 then { d with trail := { d.trail with reason := code } } else d
  if c.opcode = 0x0201 ∨ c.opcode = 0x0202 then refuseLoadCmd (decide (c.opcode = 0x0202)) c.seat code (startLong 1 c d)
  else respond c code [] d
/-- The refused commands that are the oldest ones get their responses (R298); what a long operation shows stays. The fuel is the number of
accepted commands. -/
def finishRefused : Nat → Dev → Dev
  | 0, d => d
  | n + 1, d =>
    match d.host.order with
    | [] => d
    | c :: rest =>
      if c.refused = 0 ∨ !foviaFree d then d
      else
        let d' := refuseCmd c c.refused { d with host := { d.host with order := rest } }
        finishRefused n { d' with host := { d'.host with
          longKind := d.host.longKind, longSeat := d.host.longSeat, longCmd := d.host.longCmd } }
def finishFirst (d : Dev) : Dev := finishRefused d.host.order.length d
/-- The commands of group 0x0A use the Keep store, and wait while its clock is gated (R348). -/
def keepReady (c : Cmd) (d : Dev) : Bool := decide (c.opcode < 0x0A00) || keepOn d.clk
/-- Once the refused ones before it have been answered, the oldest accepted command executes, if it is this seat's and has this opcode (R298). -/
def execCmd (seat : Seat) (op : Nat) (f : Cmd → Dev → Dev) (d : Dev) : Dev :=
  let d := finishFirst d
  match d.host.order with
  | [] => d
  | c :: rest =>
    if c.seat = seat ∧ c.opcode = op ∧ c.refused = 0 ∧ foviaFree d ∧ keepReady c d then
      let d := { d with host := { d.host with order := rest } }
      f c (if c.relayed then d else updSeat d seat fun S => { S with exec := true })
    else d

/-- A command whose whole effect is `f`: its code, its response data and the state after it. A refusal that `f` has put into the
log is not entered again (R311). -/
def execNow (seat : Seat) (op : Nat) (f : Cmd → Dev → Nat × List W64 × Dev) : Dev → Dev :=
  execCmd seat op fun c d =>
    let (code, data, d') := f c d
    if d.keep.logNext < d'.keep.logNext then putResponse c code data d' else respond c code data d'

/-! ## HALT_IF_INFO (R43, R176) -/

/-- The HALT_IF steps of the design cycle under way whose result is 1: (virtual tile, cluster, BP, step), in that order of
significance. -/
def haltSteps (d : Dev) : List (Nat × Nat × Nat × Nat) :=
  sortBy (·.1) ((activeTiles d).flatMap fun (_, T) => (List.range 16).flatMap fun c =>
    (clusterSteps T c d.image.l).filterMap fun (b, s, w) =>
      let B := bpOf (clusterOf T c) b
      if w.act = 10 && B.resValid.getLsbD s && B.res.getLsbD s then some (T.vtile, c, b, s) else none)
def recordHalts (d : Dev) : Dev :=
  match haltSteps d with
  | [] => d
  | (v, c, b, s) :: r =>
    { d with run := { d.run with haltCount := min (r.length + 1) 0xFFFF, haltVtile := v, haltCluster := c, haltBp := b
                                 haltStep := s, reqs := setBit d.run.reqs cHALT_IF true } }

/-! ## Leaving a design cycle unfinished (R180) -/

/-- A cluster whose design cycle is abandoned: valid bits and window cleared, held at its step. -/
def abandonBp (B : Bp) : Bp := { B with resValid := 0, impValid := 0 }
def abandonCluster (C : Cluster) : Cluster :=
  { C with bps := (C.bps.map fun (b, B) => (b, abandonBp B)).filter (fun (_, B) => B ≠ Bp.reset)
           begun := false, done := false, fetched := false, fireHeld := false
           window := 0, ports := (C.ports.map fun (i, P) => (i, { P with next := none, got := false })).filter fun (_, P) => P ≠ InPort.reset }
/-- Steps 2 of R180: valid bits, resolved ports and windows cleared; the pins keep the last committed outputs; words of the
abandoned design cycle still on the mesh are gone (log entry 11). -/
def abandonCycle (d : Dev) : Dev :=
  { d with
    tiles := (d.tiles.map fun (p, T) =>
      (p, { T with horizon := []
                   clusters := (T.clusters.map fun (c, C) => (c, abandonCluster C)).filter fun (_, C) => C ≠ Cluster.reset }))
    links := (d.links.map fun (l, E) =>
        (l, { E with horizons := [], linkH := 0, eocSent := false })).filter fun (_, E) => E ≠ Link.reset
    exch := { d.exch with mesh := [] }
    tio := { d.tio with val := d.tio.out, en := d.tio.outEn, resV := 0, resE := 0 } }

/-! ## Settling: STOPPED, STRANDED, FAULTED -/

/-- A region that a partial image names becomes RELOADING: its queue controllers serve what they hold, its contents are the
loader's (R148, R155). One that waits to rejoin waits no longer: it is named before it could (log entry 87). -/
def isolateRegion (r : Nat) (d : Dev) : Dev :=
  let tiles := regionTiles d.fuse r
  let d := tiles.foldl (fun d p => drainTile p d) d
  let d := if (regionOf d r).st = .active then oweRefresh r d else d
  let d := updRegion (leaveActive .reloading r d) r fun R => { R with isolatePend := false, tornPend := false, rejoin := false }
  tiles.foldl (fun d p => updTile d p fun T =>
    { T with loaded := false, banks := [] }) d

/-- Every region that waits becomes RELOADING, and the loader opens its intake. -/
def isolateNamed (d : Dev) : Dev :=
  let named := (List.range 32).filter fun r => (regionOf d r).isolatePend
  let d := named.foldl (fun d r => isolateRegion r d) d
  if d.ld.phase = .waiting then { d with ld := { d.ld with phase := .frames } } else d

/-- Regions with TORN_PENDING become TORN, unless they go to RELOADING (R164, R165). MORDANT_FAIL and its cycle are the log
entry's first-fault words (R311). -/
def tearPending (d : Dev) : Dev :=
  (List.range 32).foldl (fun d r =>
    let R := regionOf d r
    if R.tornPend && !R.isolatePend then
      updRegion (tearRegion R.tornReason r (some (d.mordant.failPlace, w64 d.mordant.failCycle)) d) r fun R => { R with rejoin := false }
    else d) d

/-- What follows on entering STOPPED, STRANDED or FAULTED (R148, R164, R215). -/
def settle (st : ModState) (d : Dev) : Dev :=
  let d := isolateNamed (tearPending (enterState st d))
  if st = .faulted then dropSession d else settleArming d

/-- FAULTED (R181), from the states that R181 names. A rewind under way ends where it stands, and its banks go back to FABRIC (R105); a
REWIND that waits in STOPPED for a checkpoint is in the wrong state (R199). A held RUN_ENABLE and a stop request of STOPPING are gone, and
RESTART_CANCELLED stays (log entry 41). -/
def faultNow (code : Nat) (d : Dev) : Dev :=
  match d.run.st with
  | .releasing | .running | .stopping | .stopped | .rewinding =>
    let d := { d with run := { d.run with fault := code, draining := false, restart := false, stopBit := false
                                          fullPass := false, baseWait := false } }
    let d := setHold false false d
    let rew := decide (d.run.st = .rewinding)
    let d := finishHeld 0x0303 code [w64 d.run.committed] (settle .faulted (if d.trail.banksTaken then handBanks .fabric d else d))
    if rew || d.trail.rewinding then
      endLong (if rew then code else 0x0004) [] { d with trail := { d.trail with rewinding := false, banksTaken := false } }
    else d
  | _ => d

/-- A fault, with its log entry where it takes the module to FAULTED. -/
def enterFaulted (code : Nat) (d : Dev) : Dev :=
  match d.run.st with
  | .releasing | .running | .stopping | .stopped | .rewinding => faultNow code (logEntry code none d)
  | _ => d

/-- The fabric leaves the design cycle under way for good and drains toward STOPPED with MID_CYCLE = 1 (R48, R180). -/
def breakCycle (set : BitVec 16) (d : Dev) : Dev :=
  let d := abandonCycle d
  let d := { d with
    run := { d.run with draining := true, midCycle := true, baseWait := false, fullPass := false }
    bkt := { d.bkt with delivOpen := false } }
  setCauses set (setHold false false (enterState .stopping d))

/-- A forced stop (R180), by a host (1) or the watchdog (2). During a hold it is an ordinary stop; after the stop barrier it
forces nothing further. -/
def forceStop (by_ : Nat) (d : Dev) : Dev :=
  if !(d.run.st = .running || d.run.st = .stopping) || d.run.draining then d
  else if held d then registerStop cHOST_STOP d
  else
    let d := logEntry (if by_ = 2 then 0x0323 else 0x0324) none { d with run := { d.run with forcedBy := by_ } }
    breakCycle (setBit d.run.reqs cFORCED true) (recordHalts d)

/-- Steps 1 to 3 of R48: an uncorrectable word holds its cluster, its tile says so, its region is TORN. -/
def eccMark (p c b det : Nat) (d : Dev) : Dev :=
  let r := tileRegion d.fuse p
  let d := updTile d p fun T => { T.updCluster c (fun C => { C with ecc := some (b, det) }) with eccFatal := true }
  oweRefresh r (tearRegion 0x0252 r none d)
/-- An uncorrectable word of a cluster (R48). The HALT_IF requests of the design cycle are counted first (R176). -/
def eccFatal (p c b det : Nat) (d : Dev) : Dev :=
  let d := eccMark p c b det (recordHalts d)
  breakCycle (setBit d.run.reqs cREGION_TORN true) d
/-- Pending rewrites of Mordant on a die (R163). -/
def noteRewrite (p key line part : Nat) (d : Dev) : Dev :=
  let m := d.mordant
  if m.rewrites.contains (p, key, line, part) ∨ 64 ≤ (m.rewrites.filter fun x => x.1 / 132 = p / 132).length then d
  else { d with mordant := { m with rewrites := m.rewrites ++ [(p, key, line, part)] } }

/-- A design cycle begins: tokens owed by held borders arrive, and links of held sources show their horizon (R84). -/
def beginCycle (d : Dev) : Dev := (usedLinks d).foldl (fun d l => raiseLink l d) (sendOwed d)

/-- The state that a region's clusters, contexts and assemblers take when its load completes (R23, R106). -/
def freshCluster (T : Tile) (c : Nat) : Cluster :=
  { Cluster.reset with
    bps := (List.range 64).foldl (fun t b => tset Bp.reset t b { Bp.reset with sta := stateInit T c b }) [] }
def freshTile (T : Tile) : Tile :=
  { T with eccFatal := false, fullPasses := 0, eccCorrected := 0, tokensOut := 0, tokensIn := 0, marksOut := 0, late := 0
           contention := 0, borderDropped := 0, fireFull := 0, memBounds := 0, conflict := [], horizon := [], ctxs := [], taps := 0
           clusters := (List.range 16).foldl (fun t c => tset Cluster.reset t c (freshCluster T c)) [], loaded := true }

end Sys2Proof.Machine
end

