-- ==== Sys2Proof/Machine/Basket.lean ====
section
/-! DEFINITION. Basket (chapter 11): descriptors, flows and ready lists, submission, delivery, completions, the ring, rewinds. -/

namespace Sys2Proof.Machine

/-! ## The BASKET region (R227) -/

/-- BASKET_SLOTS. -/
def bktSlots (d : Dev) : Nat :=
  match hbmRegion? d 3 with
  | some (_, size) => min ((size - 0x10_0000) / 64) 16777216
  | none => 0
/-- The HBM address of word w of a descriptor slot. -/
def slotAddr (base slot w : Nat) : Nat := base + 0x10_0000 + 64 * slot + 8 * w
/-- The mark of an item that no descriptor stands behind (R241). -/
abbrev noSlot := 0x100_0000
/-- Basket's node (Table 15.1). -/
abbrev bktNode : Nat := 0x406
/-- The stacks that hold a part of the BASKET region. -/
def bktDies (d : Dev) : List Nat :=
  match hbmRegion? d 3 with
  | some (base, size) => dies.filter fun die => decide ((die + 4 - base / 0x20_0000 % 4) % 4 < size / 0x20_0000)
  | none => []
/-- A word of a slot. -/
def slotWord (d : Dev) (slot w : Nat) : W64 :=
  match hbmRegion? d 3 with
  | some (base, _) => w64 (hbmRead d.mem (slotAddr base slot w) 8)
  | none => 0
/-- The words of a slot. -/
def slotWords (d : Dev) (slot : Nat) : List W64 := (List.range 8).map (slotWord d slot)
/-- The READ of a slot that is submitted: its STATUS (R320, log entry 100). -/
def readSlot (slot : Nat) (d : Dev) : Nat × Dev :=
  match hbmRegion? d 3 with
  | some (base, _) =>
    if bktSlots d ≤ slot then (0, d) else engineCall (enginePacket bktNode (slotAddr base slot 0) false 8 [] d) (slotWords d slot) d
  | none => (0, d)
/-- The WRITE of bytes of a word of a slot; what its node does not perform is not written (R321, R322; log entry 100). -/
def putSlot (slot w : Nat) (v : W64) (be : Nat) (d : Dev) : Dev :=
  match hbmRegion? d 3 with
  | some (base, _) =>
    if slot = noSlot then d
    else
      let a := slotAddr base slot w
      let (n, d) := engineCall { enginePacket bktNode a true 1 [v] d with be := BitVec.ofNat 8 be } [] d
      if n = 0 then putHbmBe a 8 v.toNat be d else d
  | none => d
/-- Word 5 with the state and count of a descriptor, LINK kept (Table 11.1). -/
def putW5 (x : Desc) (d : Dev) : Dev := putSlot x.slot 5 (word [(56, 8, x.st), (16, 8, x.deps)]) 0x8F d
/-- Word 5 of a slot with a new LINK. -/
def putLink (slot link : Nat) (d : Dev) : Dev := putSlot slot 5 (word [(32, 24, link)]) 0x70 d

/-! ## Ports and contexts (R226) -/

/-- The context of a kind that names a port, one of an ACTIVE region before any other: (tile, context).
One of a tile whose load is under way or has failed counts, as long as the tile is placed (log entry 95). -/
def portCtx? (d : Dev) (kind port : Nat) : Option (Nat × Nat) :=
  let l := (placedTiles d).flatMap fun (p, T) => (ctxsOf T).filterMap fun (q, g) =>
    if g.kind = kind && g.base % 4096 = port then some (p, q) else none
  match l.find? fun (p, _) => tileActive d p with
  | some x => some x
  | none => l.head?

/-- OUTSTANDING of a port. -/
def outstanding (d : Dev) (port : Nat) : Nat := (d.bkt.descs.filter fun x => x.port = port && x.st = 3).length
/-- WINDOW_M1 of a port: its reset value is 0x3F. -/
def windowM1 (d : Dev) (port : Nat) : Nat := tget 0x3F d.bkt.window port

/-! ## The decision trace (R237) -/

/-- The funnel has not taken Basket's last record, and has no room. -/
def bktFull (d : Dev) : Bool := d.trc.waiting.any (·.src = 0x20) && funnelFull 2 d
/-- Basket's requests to its region may not be injected. -/
def bktStalled (d : Dev) : Bool := (bktDies d).any fun die => engineStalled bktNode die d
/-- Basket must wait before its next decision, for the funnel or the service network (R237, R323). -/
def bktBlocked (d : Dev) : Bool := bktFull d || bktStalled d
def bktTrace (kind prio port flow slot : Nat) (d : Dev) : Dev :=
  trace 0x20 8 [word [(60, 4, kind), (57, 3, prio), (45, 12, port), (27, 18, flow), (3, 24, slot)]] d
def descTrace (kind : Nat) (x : Desc) (d : Dev) : Dev := bktTrace kind x.prio x.port x.flow x.slot d
/-- A decision that the funnel delays counts (R237). -/
def bktWaits (d : Dev) : Dev := if bktFull d then { d with bkt := { d.bkt with traceWait := d.bkt.traceWait + 1 } } else d

/-! ## Flows (R232) -/

/-- The descriptors of a flow that are neither COMPLETED nor DONE, oldest first. -/
def flowItems (d : Dev) (flow : Nat) : List Desc :=
  d.bkt.descs.filter fun x => x.flow = flow && x.slot ≠ noSlot && decide (x.st ≤ 3)
def flowHead? (d : Dev) (flow : Nat) : Option Desc := (flowItems d flow).head?
/-- The flow joins or leaves its ready list as its head asks. -/
def settleFlow (flow : Nat) (d : Dev) : Dev :=
  match flowHead? d flow with
  | some x =>
    if x.st = 2 then
      if d.bkt.ready.contains flow then d
      else descTrace 2 x { d with bkt := { d.bkt with ready := d.bkt.ready ++ [flow] } }
    else { d with bkt := { d.bkt with ready := d.bkt.ready.filter (· ≠ flow) } }
  | none => { d with bkt := { d.bkt with ready := d.bkt.ready.filter (· ≠ flow) } }
/-- The head flows of a port's ready list, oldest first. -/
def readyHeads (d : Dev) (port prio : Nat) : List Desc :=
  d.bkt.ready.filterMap fun f => match flowHead? d f with
    | some x => if x.port = port && x.prio = prio then some x else none
    | none => none
/-- The descriptor that a live delivery to a port takes: the head of the first flow of the lowest non-empty list. -/
def nextReady? (d : Dev) (port : Nat) : Option Desc := (List.range 8).findSome? fun i => (readyHeads d port i).head?
/-- READY of BASKET_PORT. -/
def readyBits (d : Dev) (port : Nat) : Nat :=
  ((List.range 8).map fun i => if (readyHeads d port i).isEmpty then 0 else 2 ^ i).sum

/-- Changes the waiting descriptor of a slot, and its word 5. -/
def updDesc (slot : Nat) (f : Desc → Desc) (d : Dev) : Dev :=
  match d.bkt.descs.find? (·.slot = slot) with
  | none => d
  | some x =>
    putW5 (f x) { d with bkt := { d.bkt with descs := d.bkt.descs.map fun y => if y.slot = slot then f y else y } }

/-! ## Submission (R230) -/

/-- Checks of Table 11.6 on one slot, with the words read from it: the first code that applies, 0 for none. -/
def checkSlot (d : Dev) (slot : Nat) (ws : List W64) : Nat :=
  let w (i : Nat) : W64 := ws.getD i 0
  let n := fld (w 0) 15 8
  let succ := [fld (w 2) 23 0, fld (w 2) 55 32, fld (w 3) 23 0, fld (w 3) 55 32]
  if (hbmRegion? d 3).isNone then 0x0601
  else if bktSlots d ≤ slot ∨ (succ.take n).any (fun x => decide (bktSlots d ≤ x)) then 0x0602
  else if !bit (w 0) 63 ∨ 4 < n ∨ fld (w 0) 29 24 ≠ 0 ∨ fld (w 0) 7 0 ≠ 0 ∨ fld (w 2) 63 56 ≠ 0 ∨ fld (w 2) 31 24 ≠ 0
      ∨ fld (w 3) 63 56 ≠ 0 ∨ fld (w 3) 31 24 ≠ 0 ∨ (succ.drop n).any (· ≠ 0) then 0x0603
  else if slotBusy d slot ∨ (w 5 ≠ 0 ∧ fld (w 5) 63 56 ≠ 5) then 0x0604
  else if (portCtx? d 2 (fld (w 0) 59 48)).isNone then 0x0605
  else 0

/-- The checks on a slot whose words are as HBM holds them. -/
def slotCheck (d : Dev) (slot : Nat) : Nat := checkSlot d slot (slotWords d slot)
/-- One refused slot. -/
def refuseSlot (slot code : Nat) (d : Dev) : Dev :=
  let d := { d with bkt := { d.bkt with refusedCount := d.bkt.refusedCount + 1, refused := true, reason := code
                                        badIndex := slot % 2 ^ 24 } }
  logEntry code none (bktTrace 7 0 0 0 slot d)

/-- One accepted slot joins the tail of its flow. -/
def acceptSlot (slot : Nat) (d : Dev) : Dev :=
  let w (i : Nat) : W64 := slotWord d slot i
  let n := fld (w 0) 15 8
  let deps := fld (w 0) 23 16
  let x : Desc :=
    { slot := slot, prio := fld (w 0) 62 60, port := fld (w 0) 59 48, flow := fld (w 0) 47 30
      succ := [fld (w 2) 23 0, fld (w 2) 55 32, fld (w 3) 23 0, fld (w 3) 55 32].take n, item := w 1
      st := if deps = 0 then 2 else 1, deps := deps, delivered := 0, ord := 0, decd := [], doneCycle := 0, result := 0
      reported := false }
  let d := match (flowItems d x.flow).getLast? with
    | some t => putLink t.slot slot d
    | none => d
  let d := { d with bkt := { d.bkt with descs := d.bkt.descs ++ [x], submitted := d.bkt.submitted + 1 } }
  settleFlow x.flow (descTrace 1 x (putW5 x d))

/-- The states in which Basket accepts a submission. -/
def submitState (d : Dev) : Bool :=
  match d.run.st with
  | .loaded | .releasing | .running | .stopping | .stopped | .stranded => true
  | _ => false

/-- One slot of a submission: refused with its code, or accepted (0). Words of a READ that is not answered OK are zeros (log entry 100). -/
def submitSlot (slot : Nat) (d : Dev) : Nat × Dev :=
  if !submitState d then (4, refuseSlot slot 4 d)
  else
    let (n, d) := readSlot slot d
    let code := checkSlot d slot (if n = 0 then slotWords d slot else [])
    (code, if code = 0 then acceptSlot slot d else refuseSlot slot code d)
/-- A SUBMIT command ends; its refusals are in the log already (R311). -/
def endSubmit (accepted code : Nat) (d : Dev) : Dev :=
  match d.host.held with
  | c :: _ => if c.opcode = 0x0601 then putResponse c code [w64 accepted] { d with host := { d.host with held := [] } } else d
  | [] => d
/-- A DELIVERED descriptor is QUEUED again at the head of its flow, or WAITING if its count has risen. -/
def undoDelivery (x : Desc) (d : Dev) : Dev :=
  if x.slot = noSlot then { d with bkt := { d.bkt with descs := d.bkt.descs.filter fun y => !(y.slot = noSlot && y.ord = x.ord) } }
  else updDesc x.slot (fun y => { y with st := if y.deps = 0 then 2 else 1 }) d
/-- A descriptor returns (R239). -/
def giveBack (slot : Nat) (d : Dev) : Dev :=
  match d.bkt.descs.find? fun x => x.slot = slot && x.st = 3 with
  | none => d
  | some x =>
    let d := undoDelivery x { d with bkt := { d.bkt with returned := d.bkt.returned + 1 } }
    settleFlow x.flow (descTrace 6 x d)
def setJobs (l : List BktJob) (d : Dev) : Dev := { d with bkt := { d.bkt with jobs := l } }
/-- The next decision of a job, whose rest stays in front. -/
def nextDecision (j : BktJob) (rest : List BktJob) (d : Dev) : Dev :=
  match j with
  | .give slot => giveBack slot (setJobs rest d)
  | .submit cmd slot left acc code =>
    let (r, d) := submitSlot slot d
    let acc := if r = 0 then acc + 1 else acc
    let code := if r = 0 then code else r
    if 1 < left then setJobs (.submit cmd (slot + 1) (left - 1) acc code :: rest) d
    else
      let d := setJobs rest d
      if cmd then endSubmit acc code d else d
/-- Jobs go on while nothing delays Basket; a delayed decision counts once. -/
def runJobs : Nat → Dev → Dev
  | 0, d => d
  | n + 1, d =>
    match d.bkt.jobs with
    | [] => d
    | j :: rest =>
      if bktBlocked d then d
      else
        let d := nextDecision j rest d
        runJobs n (if d.bkt.jobs.isEmpty then d else bktWaits d)
def jobSize : BktJob → Nat
  | .submit _ _ left _ _ => left
  | .give _ => 1
/-- What Basket had to decide is decided, as far as nothing delays it. -/
def bktGoOn (d : Dev) : Dev := runJobs (d.bkt.jobs.map jobSize).sum d
/-- New jobs, behind those that wait. -/
def addJobs (l : List BktJob) (d : Dev) : Dev :=
  bktGoOn (setJobs (d.bkt.jobs ++ l) (if d.bkt.jobs.isEmpty && !l.isEmpty then bktWaits d else d))

/-- A submission of consecutive slots (Table 11.6). -/
def submitWrite (cmd : Bool) (v : W64) (d : Dev) : Dev := addJobs [.submit cmd (fld v 23 0) (fld v 47 32 + 1) 0 0] d

/-! ## Delivery (R233, R241) -/

/-- Whether a design cycle is taken from the replay log (R202). -/
def inReplay (d : Dev) : Bool := decide (d.run.committed < d.trail.replay)

/-- The item and flow go into the context, with their trail record, which a CYCLE record precedes (R193). -/
def putItem (p q flow : Nat) (v : W64) (d : Dev) : Dev :=
  let d := updCtx d p q fun X => { X with items := X.items ++ [v], flows := X.flows ++ [flow] }
  let d := trailPut (p / 132) (curCycle d) [placeWord 6 (tileOf d p).vtile q (flow <<< 24), v] (openCycle (curCycle d) d)
  { d with bkt := { d.bkt with deliveredCount := d.bkt.deliveredCount + 1, deliverNo := d.bkt.deliverNo + 1 } }

/-- A descriptor becomes DELIVERED in the design cycle under way. -/
def markDelivered (x : Desc) (d : Dev) : Dev :=
  let d := updDesc x.slot (fun y => { y with st := 3, delivered := curCycle d, ord := d.bkt.deliverNo }) d
  descTrace 3 x (settleFlow x.flow d)

/-- The BASKET records of a design cycle and context, in order. -/
def basketRecs (l : List Rec) (cycle v q : Nat) : List Rec :=
  l.filter fun r => r.cycle = cycle && match r.words with
    | w :: _ => fld w 63 60 = 6 && fld w 59 51 = v && fld w 50 42 = q
    | [] => false

/-- The next logged item of a context in a replayed design cycle: FLOW and item. -/
def logged? (d : Dev) (p q : Nat) : Option (Nat × W64) :=
  let v := (tileOf d p).vtile
  let log := basketRecs (tget [] d.trail.logRecs (p / 132)) (curCycle d) v q
  let done := (basketRecs (tget [] d.trail.rings (p / 132)) (curCycle d) v q).length
  match log[done]? with
  | some ⟨_, [w, item]⟩ => some (fld w 41 24, item)
  | _ => none

/-- The record of a delivery behind which no descriptor stands; its PRIO and INDEX are open values (log entry 95). -/
def aloneTrace (port flow : Nat) (d : Dev) : Dev :=
  let (w, d) := takeFreeWord d
  bktTrace 3 (fld w 2 0) port flow (fld w 26 3) d
/-- One logged item is delivered, tied to the head of its flow; with no head to tie it to, it stands alone (R241),
and so it does behind a head that is already DELIVERED (log entry 95). -/
def replayItem (p q port flow : Nat) (item : W64) (d : Dev) : Dev :=
  let mismatch (b : Bool) (d : Dev) : Dev :=
    if b then { d with bkt := { d.bkt with replayMismatch := true, replayMismatches := d.bkt.replayMismatches + 1 } } else d
  let alone (d : Dev) : Dev :=
    let x : Desc := ⟨noSlot, 0, port, flow, [], item, 3, 0, curCycle d, d.bkt.deliverNo, [], 0, 0, false⟩
    putItem p q flow item (aloneTrace port flow { d with bkt := { d.bkt with descs := d.bkt.descs ++ [x] } })
  match flowHead? d flow with
  | none => alone d
  | some x =>
    let d := mismatch (x.st ≠ 2 || x.item ≠ item) d
    if x.st = 3 then alone d else putItem p q flow item (markDelivered x d)

/-- Completions of an earlier commit still wait to be applied; a replayed delivery depends on them (R235). -/
def completionsDue (d : Dev) : Bool := d.bkt.staged.any fun x => decide (x.2.1 ≤ d.run.committed)
/-- Basket may not decide now: it is delayed, or earlier decisions are. -/
def bktBusy (d : Dev) : Bool := bktBlocked d || !d.bkt.jobs.isEmpty
/-- One delivery to a port, if it may happen. -/
def deliverNow (port : Nat) (d : Dev) : Dev :=
  match portCtx? d 2 port with
  | none => d
  | some (p, q) =>
    if !d.bkt.delivOpen || !tileActive d p || decide ((ctxCfg (tileOf d p) q).depth ≤ (ctxOf (tileOf d p) q).items.length) then d
    else if inReplay d then
      match logged? d p q with
      | some (flow, item) =>
        if completionsDue d then d else if bktBusy d then bktWaits d else replayItem p q port flow item d
      | none => d
    else if windowM1 d port < outstanding d port then d
    else match nextReady? d port with
      | none => d
      | some x => if bktBusy d then bktWaits d else putItem p q x.flow x.item (markDelivered x d)
/-- The same, behind what Basket had to decide before. -/
def deliverPort (port : Nat) (d : Dev) : Dev := deliverNow port (bktGoOn d)

/-! ## Completions (R231, R235) -/

/-- A successor loses one from its count (R231); the Bool says that the decrement took effect. -/
def release (slot : Nat) (d : Dev) : Bool × Dev :=
  match d.bkt.descs.find? (·.slot = slot) with
  | none =>
    (false, { d with bkt := { d.bkt with depOrphans := d.bkt.depOrphans + 1, depOrphan := true } })
  | some x =>
    if x.st = 4 then (false, { d with bkt := { d.bkt with depOrphans := d.bkt.depOrphans + 1, depOrphan := true } })
    else if x.deps = 0 then
      (false, { d with bkt := { d.bkt with depUnderflow := d.bkt.depUnderflow + 1, depOrphan := true } })
    else
      (true, settleFlow x.flow (updDesc slot (fun y =>
        { y with deps := y.deps - 1, st := if y.deps = 1 ∧ y.st = 1 then 2 else y.st }) d))

/-- The successors of a completion, in order; the answer lists those that were decremented. -/
def releaseAll : List Nat → Dev → List Nat × Dev
  | [], d => ([], d)
  | s :: r, d =>
    let (b, d) := release s d
    let (l, d) := releaseAll r d
    (if b then s :: l else l, d)

/-- The DELIVERED descriptor of a port that was delivered first. -/
def oldestDelivered? (d : Dev) (port : Nat) : Option Desc :=
  (sortBy (·.ord) (d.bkt.descs.filter fun x => x.port = port && x.st = 3)).head?

/-- A completion of a design cycle takes effect (R235). -/
def complete (port cycle : Nat) (v : W64) (d : Dev) : Dev :=
  let orphan (d : Dev) : Dev :=
    { d with bkt := { d.bkt with complOrphan := true, complOrphans := d.bkt.complOrphans + 1 } }
  match oldestDelivered? d port with
  | none => orphan d
  | some x =>
    if x.slot = noSlot then
      orphan { d with bkt := { d.bkt with descs := d.bkt.descs.filter fun y => !(y.slot = noSlot && y.ord = x.ord) } }
    else
      let d := updDesc x.slot (fun y => { y with st := 4, doneCycle := cycle, result := v }) d
      let d := putSlot x.slot 7 (w64 cycle) 255 (putSlot x.slot 6 v 255 d)
      let d := descTrace 4 x d
      let (l, d) := releaseAll x.succ d
      let d := settleFlow x.flow (updDesc x.slot (fun y => { y with decd := l }) d)
      let d := match findLast? (fun e : Nat × Nat × Nat × Nat => e.1 = 1) d.bkt.report with
        | some (_, _, t, _) => putLink t x.slot d
        | none => d
      { d with bkt := { d.bkt with report := d.bkt.report ++ [(1, x.flow, x.slot, cycle)]
                                   completed := d.bkt.completed + 1 } }

/-- Applies a list of completions in order; those that the funnel or the service network delays stay staged (R237, R323). -/
def completeAll : List (Nat × Nat × W64) → Dev → Dev
  | [], d => d
  | x :: r, d =>
    if bktBusy d then bktWaits { d with bkt := { d.bkt with staged := x :: r ++ d.bkt.staged } }
    else completeAll r (complete x.1 x.2.1 x.2.2 d)
/-- The staged completions of design cycles up to n take effect, by design cycle, then port, then posting order; held ones of
full BASKET_DONE contexts take the room that becomes free (R234). -/
def applyStaged (n : Nat) (d : Dev) : Dev :=
  let due := sortBy (·.2.1) (sortBy (·.1) (d.bkt.staged.filter fun x => decide (x.2.1 ≤ n)))
  completeAll due { d with bkt := { d.bkt with staged := d.bkt.staged.filter fun x => decide (n < x.2.1) } }
def stageAllHeld (d : Dev) : Dev :=
  (placedTiles d).foldl (fun d (p, T) => (ctxsOf T).foldl (fun d (q, g) =>
    if g.kind = 3 then (ctxOf (tileOf d p) q).ents.foldl (fun d _ => stageHeld p q d) d else d) d) d

/-- The logged items that a replayed design cycle has not delivered yet go into a context, until Basket is delayed; the fuel bounds their
number. -/
def flushLogged (p q port : Nat) : Nat → Dev → Dev
  | 0, d => d
  | n + 1, d => match logged? d p q with
    | some (flow, item) => if bktBusy d then bktWaits d else flushLogged p q port n (replayItem p q port flow item d)
    | none => d
/-- The contexts of the ACTIVE regions that take items. -/
def takeCtxs (d : Dev) : List (Nat × Nat × Nat) :=
  (activeTiles d).flatMap fun (p, T) => (ctxsOf T).filterMap fun (q, g) => if g.kind = 2 then some (p, q, g.base % 4096) else none
/-- Before a replayed barrier the completions of earlier commits have taken effect, and every context has received its logged items
(R202, R235); `replayLeft` says that some have not, since Basket is delayed. -/
def flushReplay (d : Dev) : Dev :=
  if !inReplay d then d
  else
    let now (d : Dev) : Dev := applyStaged d.run.committed d
    let d := now (stageAllHeld (now (bktGoOn d)))
    if completionsDue d then d
    else (takeCtxs d).foldl (fun d (p, q, port) =>
      flushLogged p q port (tget [] d.trail.logRecs (p / 132)).length d) d
def replayLeft (d : Dev) : Bool :=
  inReplay d && (completionsDue d || (takeCtxs d).any fun (p, q, _) => (logged? d p q).isSome)

/-! ## The ring (R236) -/

/-- Source 0x01D is raised once for a commit that leaves TAIL different from HEAD, by itself or with the entries of the completions
that it lets take effect (R236). -/
def raiseRing (d : Dev) : Dev :=
  if d.bkt.ringDue && decide (d.bkt.tail ≠ d.bkt.head) then pulse 0x01D { d with bkt := { d.bkt with ringDue := false } } else d
/-- Writes the ring entry of the oldest of the report queue, if the ring has room; one whose WRITE its node does not perform stays to be
written (log entry 100). -/
def ringEntry (d : Dev) : Dev :=
  let b := d.bkt
  match b.report, hbmRegion? d 3 with
  | (kind, flow, slot, cycle) :: rest, some (base, _) =>
    if (b.tail + 1) % 65536 = b.head || bktStalled d then d
    else
      let ws := [word [(60, 4, kind), fb 59 b.phase, (30, 18, flow), (0, 24, slot)], w64 cycle]
      let (n, d) := engineCall (enginePacket bktNode (base + 16 * b.tail) true 2 ws d) [] d
      if n ≠ 0 then d
      else
      let d := putHbmWords (base + 16 * b.tail) ws { d with
        bkt := { b with report := rest, tail := (b.tail + 1) % 65536
                        phase := if b.tail = 65535 then !b.phase else b.phase } }
      let d := raiseRing d
      if kind ≠ 1 then d
      else match d.bkt.descs.find? (fun x => x.slot = slot && x.st = 4) with
        | none => d
        | some x =>
          let d := putW5 { x with st := 5 } d
          { d with bkt := { d.bkt with descs := d.bkt.descs.filter fun y => y.slot ≠ slot
                                       done := if trailOn d then d.bkt.done ++ [{ x with st := 5, reported := true }]
                                         else d.bkt.done } }
  | _, _ => d
/-- Writes entries while the ring has room; the fuel is the queue's length. -/
def flushRing : Nat → Dev → Dev
  | 0, d => d
  | n + 1, d => flushRing n (ringEntry d)

/-! ## Rewinds and loads (R238 to R240) -/

/-- The next descriptor of a descriptor's flow. -/
def nextInFlow (x : Desc) (d : Dev) : Option Desc :=
  (((flowItems d x.flow).dropWhile fun y => y.slot ≠ x.slot).drop 1).head?
/-- LINK of a descriptor that is back in its flow names the next of the flow, where there is one (R228; log entry 23). -/
def relink (x : Desc) (d : Dev) : Dev :=
  match nextInFlow x d with
  | some y => putLink x.slot y.slot d
  | none => d
/-- A completion after t is undone: successors regain their decrements; a reported one gets a RESCIND entry (R240). Its descriptor comes
back beside a new one that holds its slot since (log entry 95). -/
def undoCompletion (x : Desc) (d : Dev) : Dev :=
  let d := x.decd.foldl (fun d s => updDesc s (fun y => { y with deps := y.deps + 1, st := if y.st = 2 then 1 else y.st }) d) d
  let back := { x with st := 3, result := 0, doneCycle := 0, decd := [], reported := false }
  let d := if x.reported then
      let d := { d with bkt := { d.bkt with descs := back :: d.bkt.descs, done := d.bkt.done.filter (· ≠ x)
                                            report := d.bkt.report ++ [(2, x.flow, x.slot, x.doneCycle)] }
                        trail := { d.trail with rescinded := d.trail.rescinded + 1 } }
      descTrace 5 x d
    else
      { d with bkt := { d.bkt with descs := d.bkt.descs.map fun y => if y.slot = x.slot then back else y
                                   report := d.bkt.report.filter fun e => !(e.1 = 1 && e.2.2.1 = x.slot) } }
  relink x (putW5 back (putSlot x.slot 7 0 255 (putSlot x.slot 6 0 255 d)))

/-- Every flow joins or leaves its ready list. -/
def settleFlows (d : Dev) : Dev := ((d.bkt.descs.map (·.flow)).eraseDups ++ d.bkt.ready).foldl (fun d f => settleFlow f d) d

/-- Completions are undone, newest first, until Basket is delayed. -/
def undoAll : List Desc → Dev → Dev
  | [], d => d
  | x :: r, d => if x.reported && bktBusy d then bktWaits d else undoAll r (undoCompletion x d)
/-- The completions of design cycles after t, oldest first. -/
def lateDone (t : Nat) (d : Dev) : List Desc :=
  (d.bkt.done.filter fun x => decide (t < x.doneCycle)) ++
    (d.bkt.report.filterMap fun e => if e.1 = 1 && decide (t < e.2.2.2) then d.bkt.descs.find? (fun x => x.slot = e.2.2.1 && x.st = 4)
      else none)
/-- Order 7 of Table 9.3: the completions of design cycles up to t that still stand staged take effect, the others are
discarded; later completions and deliveries are undone, newest first. The Bool says that all of it is done: what delays Basket delays the
rewind, and a later try goes on from here (R237, R323). -/
def basketRewind (t : Nat) (d : Dev) : Bool × Dev :=
  let d := applyStaged t (bktGoOn d)
  if bktBusy d || d.bkt.staged.any (fun x => decide (x.2.1 ≤ t)) then (false, d)
  else
    let d := undoAll (lateDone t d).reverse { d with bkt := { d.bkt with staged := [], ringDue := false } }
    if !(lateDone t d).isEmpty then (false, d)
    else
      let late := sortBy (·.ord) (d.bkt.descs.filter fun x => x.st = 3 && decide (t < x.delivered))
      let d := settleFlows (late.reverse.foldl (fun d x => undoDelivery x d) d)
      (true, flushRing d.bkt.report.length d)

/-- A job of a submission. -/
def isSubmit : BktJob → Bool
  | .submit .. => true
  | .give _ => false
/-- A full load's header is accepted (R238); what is left of a submission is judged in the state that it finds. -/
def basketClear (d : Dev) : Dev :=
  { d with bkt := { Basket.reset with jobs := d.bkt.jobs.filter isSubmit, reason := d.bkt.reason, badIndex := d.bkt.badIndex, refused := d.bkt.refused
                                      depOrphan := d.bkt.depOrphan, complOrphan := d.bkt.complOrphan
                                      replayMismatch := d.bkt.replayMismatch, flowSel := d.bkt.flowSel
                                      window := d.bkt.window } }

/-- A load completes for a tile that serves a port (R239): the descriptors return newest first, so each flow's oldest ends in front, and their
flows join the ready lists in that order (log entry 95). -/
def basketReturn (port : Nat) (d : Dev) : Dev :=
  let l := (sortBy (·.ord) (d.bkt.descs.filter fun x => x.st = 3 && x.port = port)).reverse
  addJobs ((l.filter (·.slot ≠ noSlot)).map fun x => .give x.slot) ((l.filter (·.slot = noSlot)).foldl (fun d x => undoDelivery x d) d)

/-! ## Commands -/

def execBasketDelivery (port : Fin 4096) (s : State) : Host.Outcome State Fault Refusal := lift (deliverPort port) s
/-- R235: the completions staged up to the last commit take effect. -/
def applyNow (d : Dev) : Dev := if bktBusy d then bktWaits d else stageAllHeld (applyStaged d.run.committed d)
/-- The same, behind what Basket had to decide before. -/
def basketApply (d : Dev) : Dev := applyNow (bktGoOn d)
def execBasketApplyCompletions (s : State) : Host.Outcome State Fault Refusal := lift basketApply s
def execBasketRingEntry (s : State) : Host.Outcome State Fault Refusal := lift ringEntry s

end Sys2Proof.Machine
end

