-- ==== Sys2Proof/Machine/Queues.lean ====
section
/-! DEFINITION. The rows of design memory (chapter 5), of capture (chapter 10) and of Basket submission (chapter 11) that a
queue controller, a seat or a mailbox command brings about. -/

namespace Sys2Proof.Machine

/-- The oldest request of a context that has not been served reads HBM: a READ or SWAP, and with a trail any write, whose old word
the trail takes (R105). -/
def readsHbm (d : Dev) (p q : Nat) : Bool :=
  let T := tileOf d p
  (ctxCfg T q).kind = 1
    && ((ctxOf T q).ents.find? fun e => !e.served).any fun e => !e.failed && (e.op = 0 || e.op = 3 || trailOn d)
/-- The drain before STOPPED, or in STRANDED, which R275 settles without a run (R106). -/
def inDrain (d : Dev) : Bool := d.run.draining || d.run.st = .stranded
/-- QUEUE_SERVE: a read that meets an uncorrectable HBM error puts the module in FAULTED (R181). A request
to HBM waits while the clock of the HBM controllers is stopped (R350). -/
def queueServe (p q : Nat) (hbmError : Bool) (d : Dev) : Dev :=
  if !serving d || (d.clk.frozen && (ctxCfg (tileOf d p) q).kind = 1) then d
  else if hbmError && readsHbm d p q then enterFaulted 0x0325 d
  else serveOne (inDrain d) p q d

def execQueueServe (tile : Fin 528) (ctx : Fin 512) (hbmError : Bool) (s : State) : Host.Outcome State Fault Refusal :=
  lift (queueServe tile ctx hbmError) s
def execResponseAvailable (tile : Fin 528) (ctx : Fin 512) (s : State) : Host.Outcome State Fault Refusal :=
  lift (makeAvail tile ctx) s
def execRegionTableWrite (m : Master) (entry : Fin 16) (size : Bool) (v : W64) (s : State) :
    Host.Outcome State Fault Refusal := lift (writeRegionEntry m entry size v) s
def execSnHbmAccess (m : Master) (addr : Nat) (acc : Access) (s : State) : Host.Outcome State Fault Refusal :=
  lift (accessHbm m addr acc) s
def execBankAccess (m : Master) (tile : Fin 528) (offset : Nat) (acc : Access) (s : State) : Host.Outcome State Fault Refusal :=
  lift (accessBank m tile offset acc) s
def execHstreamRead (m : Master) (tile : Fin 528) (ctx : Fin 512) (s : State) : Host.Outcome State Fault Refusal :=
  lift (byAccess m none (aTile tile (0x7000 + 8 * ctx)) (readStream m tile ctx)) s
def execHstreamWrite (m : Master) (tile : Fin 528) (ctx : Fin 512) (v : W64) (s : State) : Host.Outcome State Fault Refusal :=
  lift (byAccess m (some v) (aTile tile (0x7000 + 8 * ctx)) (writeStream tile ctx v)) s
def execReqOwnerWrite (m : Master) (tile : Fin 528) (bank : Fin 16) (v : W64) (s : State) : Host.Outcome State Fault Refusal :=
  lift (byWrite m (aTile tile (0x1180 + 8 * bank)) v (writeOwner tile bank v)) s
def execOwnerHandoverDone (tile : Fin 528) (bank : Fin 16) (s : State) : Host.Outcome State Fault Refusal :=
  lift (ownerDone tile bank) s

/-! ## Capture (R209, R215, R223, R225) -/

/-- The seats that write capture registers. -/
def capWriter (m : Master) : Bool := byOneOf m [.manager, .run, .debug]

def execCapCtrlArm (m : Master) (s : State) : Host.Outcome State Fault Refusal :=
  lift (byWrite m (aCapture 0) 2 fun d => if capWriter m then (capArm d).2 else d) s
def execArm (seat : Seat) (s : State) : Host.Outcome State Fault Refusal :=
  lift (execNow seat 0x0501 fun _ d => let (code, d) := capArm d; (code, [], d)) s
def execCapCtrlDisarm (m : Master) (s : State) : Host.Outcome State Fault Refusal :=
  lift (byWrite m (aCapture 0) 4 fun d => if capWriter m then (capDisarm d).2 else d) s
def execDisarm (seat : Seat) (s : State) : Host.Outcome State Fault Refusal :=
  lift (execNow seat 0x0502 fun _ d => let (code, d) := capDisarm d; (code, [], d)) s
def execCaptureConfigWrite (m : Master) (offset : Nat) (v : W64) (s : State) : Host.Outcome State Fault Refusal :=
  lift (byWrite m (aCapture offset) v fun d => if capWriter m then capWrite offset v d else d) s

/-! ## Submission (R230) -/

/-- SUBMIT: it is answered once its last slot has been judged, with the slots accepted and the REASON of the last refused one. -/
def submitCmd (c : Cmd) (d : Dev) : Dev := submitWrite true (c.par 1) (holdCmd c d)

def execBasketSubmit (m : Master) (v : W64) (s : State) : Host.Outcome State Fault Refusal :=
  lift (byWrite m (aBasket 8) v fun d => if byOneOf m [.manager, .run] then submitWrite false v d else d) s
def execSubmit (seat : Seat) (s : State) : Host.Outcome State Fault Refusal := lift (execCmd seat 0x0601 submitCmd) s

end Sys2Proof.Machine
end

