-- ==== Sys2Proof/Machine/Rails.lean ====
section
/-! DEFINITION. Thermos's rails and what they say of the pace: the aim (R187), the ceiling and the rail command (R362, R363), LIMIT
(R186). -/

namespace Sys2Proof.Machine

def updTh (f : Thermos → Thermos) (d : Dev) : Dev := { d with th := f d.th }

/-! ## The aim and the ceiling -/

/-- The aim of R187. -/
def paceAim (t c : Nat) : Nat := if c = 0 then t else if t = 0 then c else min t c
/-- A level on the 5 mV grid of VOUT_COMMAND; one off the grid acts as the level below it (log entry 92). -/
def grid (n : Nat) : Nat := n / 5 * 5
/-- RAIL_MAX_MV as it acts (Table 17.10). -/
def railMax (t : Thermos) : Nat := if 600 ≤ t.maxMv ∧ t.maxMv ≤ 850 then grid t.maxMv else 850
/-- The ceiling of the rails in mV (R362). -/
def ceilingMv (t : Thermos) : Nat := min (railMax t) (if t.wearCapped then 800 else 850)
/-- IDLE_MV as it acts (Table 17.10). -/
def idleMv (t : Thermos) : Nat := if 600 ≤ t.idleMv ∧ t.idleMv ≤ 750 then grid t.idleMv else 650
/-- POWER_LIMIT_W as it acts. -/
def powerLimit (t : Thermos) : Nat := min t.limitW 850
/-- A rail at 255 A counts as at its ceiling (R362). -/
def railLimited (t : Thermos) : Bool := t.rails.any fun (_, (a, _, _)) => decide (255 ≤ a)
/-- The rails stand at their ceiling. -/
def atCeiling (t : Thermos) : Bool := decide (ceilingMv t ≤ t.setMv) || railLimited t
/-- The ceiling's lowest term is the wear ceiling. -/
def wearLowest (t : Thermos) : Bool := t.wearCapped && decide (800 < railMax t)

/-! ## The pace's limit (R186) -/

/-- What binds the rails now is noted for the window. -/
def noteLimit (d : Dev) : Dev :=
  let r := d.run
  let top := atCeiling d.th
  { d with run := { r with
      pacePower := r.pacePower || d.th.throttling
      paceWear := r.paceWear || (top && wearLowest d.th)
      paceVolt := r.paceVolt || (top && !wearLowest d.th) } }
/-- A cause of Table 1.4 holds steps while the rails are below their ceiling. -/
def noteWait (d : Dev) : Dev := if atCeiling d.th then d else { d with run := { d.run with paceWaits := true } }
/-- LIMIT of a window whose pace is `actual`. -/
def paceLimitOf (r : Run) (actual : Nat) : Nat :=
  let aim := paceAim r.paceTargetUse r.paceCapUse
  if aim = 0 then 1
  else if 98 * aim ≤ 100 * actual then (if aim = r.paceCapUse ∧ r.paceCapUse < r.paceTargetUse then 6 else 0)
  else if r.paceThermal then 5
  else if r.pacePower then 3
  else if r.paceWear then 4
  else if r.paceVolt then 2
  else if r.paceWaits then 7
  else 0
/-- ACTUAL and LIMIT as PACE_STATUS shows them: 0 and the aim's presence in every state but RUNNING. -/
def paceShown (r : Run) : Nat × Nat :=
  if r.st = .running then (r.paceActual, r.paceLimit) else (0, if paceAim r.paceTargetUse r.paceCapUse = 0 then 1 else 0)

/-! ## The rail command (R362, R363) -/

/-- The regulator addresses of PMBUS_ADDR, RAIL0 to RAIL3. -/
def railAddrs (t : Thermos) : List Nat := [fld t.pmbus 6 0, fld t.pmbus 13 7, fld t.pmbus 20 14, fld t.pmbus 27 21]
/-- VOUT_COMMAND to every regulator; none goes out while a test-control instruction has the PMBus lands (R378). -/
def setRails (mv : Nat) (d : Dev) : Dev :=
  updTh (fun t => { t with setMv := mv, vout := if jtagTest d then t.vout else (railAddrs t).foldl (fun v a => tset 0 v a mv) t.vout }) d
/-- A level within 0.60 V and the ceiling. -/
def levelMv (t : Thermos) (n : Nat) : Nat := max 600 (min (grid n) (ceilingMv t))
/-- Thermos aims at a level: down at once; up unless a rail's current forbids it. Under a latched throttle it rises 5 mV, and only
to a level that keeps power at or below POWER_LIMIT: with POWER_W within the limit an open bit says whether the next level does, as
nothing gives the power of a level before it is set (log entry 92). -/
def aimRails (n : Nat) (d : Dev) : Dev :=
  let t := d.th
  if n ≤ t.setMv then setRails (levelMv t n) d
  else if railLimited t || (t.throttling && decide (powerLimit t < t.powerW)) then setRails (levelMv t t.setMv) d
  else if t.throttling then
    let (keeps, d) := takeFreeBit d
    setRails (levelMv t (if keeps then min n (t.setMv + 5) else t.setMv)) d
  else setRails (levelMv t n) d
/-- The rail command of a tick: the idle level, also after a THERMAL_TRIP (R363), nominal 0.75 V without an aim, or 5 mV toward the aim;
BOOT keeps the level at which the rails came up (R379). -/
def stepRails (d : Dev) : Dev :=
  let aim := paceAim d.run.paceTargetUse d.run.paceCapUse
  let actual := (paceShown d.run).1
  match d.run.st with
  | .idle | .loaded | .stopped => aimRails (idleMv d.th) d
  | .boot => d
  | _ =>
    if d.run.st = .faulted ∧ d.run.fault = 0x0921 then aimRails (idleMv d.th) d
    else if aim = 0 then aimRails 750 d
    else if actual < aim then aimRails (d.th.setMv + 5) d
    else if 102 * aim < 100 * actual then aimRails (d.th.setMv - 5) d
    else aimRails d.th.setMv d

end Sys2Proof.Machine
end

