-- ==== Sys2Proof/Machine/Fabric.lean ====
section
/-! DEFINITION. The cluster step (chapter 2): fetch, admission, the five phases, marks; WAIT_CAUSE. -/

namespace Sys2Proof.Machine

/-! ## Fetch -/

/-- The 64 step words of a step as their BPs use them, by BP; the lowest uncorrectable BP instead, if there is one (log entry
86). -/
def fetchStep (T : Tile) (c s : Nat) : Nat → Except Nat (List (Nat × StepW × Bool))
  | 0 => .ok []
  | n + 1 =>
    match fetchStep T c s n with
    | .error b => .error b
    | .ok l => match usedStep (instrLine T c n s) with
      | some (w, fix) => .ok (l ++ [(n, w, fix)])
      | none => .error n

/-- The BPs whose words of a step are corrected on fetch. -/
def fixedBps (T : Tile) (c s : Nat) : List Nat :=
  (List.range 64).filter fun b => match usedStep (instrLine T c b s) with
    | some (_, fix) => fix
    | none => false

/-- Words of a step, without the marks of correction. -/
abbrev StepWords := List (Nat × StepW)

/-- The word of a BP. -/
def wordOf (ws : StepWords) (b : Nat) : Option StepW := (ws.find? fun x => x.1 = b).map (·.2)

/-! ## Admission (R24, R50) -/

/-- The index of a truth table (R35, R56). -/
def ttIndex (B : Bp) (w : StepW) : Nat :=
  b2n (opVal B w.opd) * 8 + b2n (opVal B w.opc) * 4 + b2n (opVal B w.opb) * 2 + b2n (opVal B w.opa)
/-- The result of a non-chain step. -/
def plainResult (B : Bp) (w : StepW) : Bool := w.tt.testBit (ttIndex B w)

/-- The FIRE of a step whose result is 1, by BP. -/
def firing (C : Cluster) (ws : StepWords) : Option Nat :=
  (ws.find? fun (b, w) => w.act = 5 && plainResult (bpOf C b) w).map (·.1)
/-- The BP with a WAIT. -/
def waiting (ws : StepWords) : Option Nat := (ws.find? fun (_, w) => w.act = 6).map (·.1)

/-- Whether a PUSH is the sole writer of its assembler bit (R39). -/
def soleWriter (T : Tile) (c L i : Nat) : Bool :=
  ((clusterSteps T c L).filter fun (_, _, w) => w.act = 4 && w.sel = i).length = 1

/-- Whether a non-chain step is quiet (R37, R39). -/
def quietPlain (T : Tile) (c L : Nat) (full : Bool) (B : Bp) (w : StepW) : Bool :=
  (match w.act with
    | 5 | 6 => false
    | 4 => soleWriter T c L w.sel
    | _ => true) && !full && [w.opa, w.opb, w.opc, w.opd].all (fun o => !opChg full B o)

/-- The assembler after the PUSH steps of a step (R34, R38). -/
def pushed (T : Tile) (c L : Nat) (full : Bool) (C : Cluster) (ws : StepWords) : BitVec 128 :=
  ws.foldl (fun a (b, w) =>
    if w.act = 4 && !quietPlain T c L full (bpOf C b) w then setBit a w.sel (plainResult (bpOf C b) w) else a) C.asm

/-- The first operand of a BP that is not valid, in the order OPA, OPB, OPC, OPD: R50 fixes the BP alone (log entry 86). -/
def badOperand (B : Bp) (w : StepW) : Option Nat :=
  if w.act = 0 then none else [w.opa, w.opb, w.opc, w.opd].find? fun a => !opValid B a

/-- Why a step is not admitted, as (WAIT_CAUSE, BP, DETAIL), in the order of R50; `none` when it is. -/
def admission (d : Dev) (p c : Nat) (full : Bool) (ws : StepWords) : Option (Nat × Nat × Nat) :=
  let T := tileOf d p
  let C := clusterOf T c
  let s := C.step
  let op := ws.findSome? fun (b, w) => (badOperand (bpOf C b) w).map fun a => (1, b, a)
  let imp := ws.filter fun (_, w) => imports w.act
  let peer := imp.findSome? fun (b, w) =>
    if w.sel < 64 && s ≠ 0 && !(bpOf C w.sel).resValid.getLsbD (s - 1) then some (2, b, w.sel) else none
  let exch := imp.findSome? fun (b, w) =>
    if 64 ≤ w.sel && w.sel < 128 && !portResolved d p c (w.sel - 64) then some (3, b, w.sel - 64) else none
  let wait := match waiting ws with
    | some b => if (nextResponse T c).isSome then none
        else some (4, b, (C.order.head?).getD (32 * c + fld (qbind T c) 4 0))
    | none => none
  let fire := match firing C ws with
    | some b =>
      let r := request T c (pushed T c d.image.l full C ws)
      if fireRoom T c r (waiting ws).isSome then none else some (5, b, r.ctx)
    | none => none
  op <|> peer <|> exch <|> wait <|> fire

/-! ## The five phases -/

/-- The value that SEL imports at step s (Table 2.4); that of a reserved SEL is open (log entry 87). -/
def importValue (C : Cluster) (s sel : Nat) : Bool :=
  if sel < 64 then
    if s = 0 then (bpOf C sel).wrap else (bpOf C sel).res.getLsbD (s - 1)
  else if sel < 128 then (portOf C (sel - 64)).value
  else if sel < 192 then C.window.getLsbD (sel - 128)
  else if sel < 208 then C.pins.getLsbD (sel - 192)
  else Config.reservedBit sel

/-- Phase 2 at one BP (R30). -/
def captureImport (full : Bool) (s : Nat) (v : Bool) (B : Bp) : Bp :=
  { B with imp := setBit B.imp s v, impValid := setBit B.impValid s true
           impChg := setBit B.impChg s (full || v != B.imp.getLsbD s) }
def setBp (C : Cluster) (b : Nat) (B : Bp) : Cluster := { C with bps := tset Bp.reset C.bps b B }
def phase2 (full : Bool) (s : Nat) (C : Cluster) (ws : StepWords) : Cluster :=
  ws.foldl (fun C' (b, w) =>
    if imports w.act && w.sel ≠ 0xFF then
      setBp C' b (captureImport full s (importValue C s w.sel) (bpOf C' b)) else C') C

/-- The carry that ripples upward: the value of the last chain step's carry-out and whether that step was evaluated; `none`
after any other action (R35, R37). -/
abbrev Carry := Option (Bool × Bool)

/-- What phase 3 makes of one BP: its rows, its carry, whether it was quiet (R35 to R38). -/
def evalBp (T : Tile) (c L : Nat) (full : Bool) (s : Nat) (cy : Carry) (B : Bp) (w : StepW) : Bp × Carry × Bool :=
  let write (r : Bool) (quiet : Bool) : Bp :=
    if quiet then { B with resValid := setBit B.resValid s true, resChg := setBit B.resChg s false }
    else { B with res := setBit B.res s r, resValid := setBit B.resValid s true
                  resChg := setBit B.resChg s (full || r != B.res.getLsbD s) }
  if isChain w.act then
    let cin := if w.act = 8 then opVal B w.opd else match cy with
      | some (v, _) => v
      | none => false
    let cinChg := full || (w.act = 7 && match cy with
      | some (_, e) => e
      | none => false)
    let idx := b2n cin * 4 + b2n (opVal B w.opb) * 2 + b2n (opVal B w.opa)
    let quiet := !cinChg && [w.opa, w.opb, w.opc, w.opd].all (fun o => !opChg full B o)
    (write (w.tt.testBit idx) quiet, some (w.tt.testBit (8 + idx), !quiet), quiet)
  else
    let quiet := quietPlain T c L full B w
    (write (plainResult B w) quiet, none, quiet)

/-- What a step sends besides: tokens as (port, value), quiet and evaluated counts. -/
structure StepOut where
  tokens : List (Nat × Bool)
  evals : Nat
  quiets : Nat
  deriving DecidableEq, Repr

/-- Phase 3 over the BPs in ascending order. -/
def phase3 (T : Tile) (c L : Nat) (full : Bool) (s : Nat) : StepWords → Carry → Cluster → StepOut → Cluster × StepOut
  | [], _, C, o => (C, o)
  | (b, w) :: r, cy, C, o =>
    if w.act = 0 then phase3 T c L full s r none C o
    else
      let (B, cy, quiet) := evalBp T c L full s cy (bpOf C b) w
      let o := { o with
        tokens := if w.act = 3 && B.resChg.getLsbD s then o.tokens ++ [(w.sel, B.res.getLsbD s)] else o.tokens
        evals := if quiet then o.evals else o.evals + 1
        quiets := if quiet then o.quiets + 1 else o.quiets }
      phase3 T c L full s r cy (setBp C b B) o

/-- The cluster performs its step: the five phases, then tokens and marks (R24, R70). -/
def performStep (p c : Nat) (ws : StepWords) (d : Dev) : Dev :=
  let full := d.run.fullPass
  let L := d.image.l
  let T0 := tileOf d p
  let C0 := clusterOf T0 c
  let s := C0.step
  let asm := pushed T0 c L full C0 ws
  let fire := (firing C0 ws).isSome
  let d := if (waiting ws).isSome then consume p c d else d
  let C := phase2 full s (clusterOf (tileOf d p) c) ws
  let (C, o) := phase3 T0 c L full s ws none C ⟨[], 0, 0⟩
  let d := updCluster d p c fun _ =>
    { C with asm := asm, evals := C.evals + w64 o.evals, quiets := C.quiets + w64 o.quiets }
  let d := if fire then enqueue p c d else d
  let d := o.tokens.foldl (fun d (port, v) => sendToken p c port s v d) d
  let d := updCluster d p c fun C =>
    if s + 1 = L then { C with done := true, fetched := false, fireHeld := false }
    else { C with step := s + 1, fetched := false, fireHeld := false }
  let halts := ws.any fun (b, w) => w.act = 10 && (bpOf (clusterOf (tileOf d p) c) b).res.getLsbD s
  let d := if halts then registerStop cHALT_IF d else d
  stepMark p c s d

/-- The corrections among the 64 fetches of a step are counted and noted once a step, whatever the other words hold (R47, R163). -/
def countFixes (p c : Nat) (d : Dev) : Dev :=
  let C := clusterOf (tileOf d p) c
  if C.fetched then d
  else
    let l := fixedBps (tileOf d p) c C.step
    let d := updTile d p fun T => { T with eccCorrected := T.eccCorrected + w64 l.length }
    l.foldl (fun d b => noteRewrite p (storeKey kINSTR c) (b * 1024 + C.step) 0 d) d
/-- A cluster whose words have been fetched: corrections are counted (R54), a cluster that begins the design cycle emits its
first mark (R70). -/
def readyStep (p c : Nat) (d : Dev) : Dev :=
  let begun := (clusterOf (tileOf d p) c).begun
  let d := countFixes p c d
  let d := if begun then d else beginMark p c d
  updCluster d p c fun C => { C with begun := true, fetched := true }
/-- The words without the marks of correction. -/
def plainWords (ws : List (Nat × StepW × Bool)) : StepWords := ws.map fun (b, w, _) => (b, w)
/-- A step that admission holds back, as PACE shows (R186); a FIRE without room counts once (R107). -/
def holdStep (p c : Nat) (why : Nat × Nat × Nat) (d : Dev) : Dev :=
  let d := noteWait d
  if why.1 ≠ 5 ∨ (clusterOf (tileOf d p) c).fireHeld then d
  else updTile d p fun T => { T.updCluster c (fun C => { C with fireHeld := true }) with fireFull := T.fireFull + 1 }

/-- R24: a cluster of a running module attempts its step. -/
def clusterStep (p c : Nat) (d : Dev) : Dev :=
  let T := tileOf d p
  let C := clusterOf T c
  if !cycleOpen d || !tileActive d p || C.done || C.ecc.isSome then d
  else
    match fetchStep T c C.step 64 with
    | .error b => eccFatal p c b 0 (countFixes p c d)
    | .ok ws =>
      let d := readyStep p c d
      match admission d p c d.run.fullPass (plainWords ws) with
      | none => performStep p c (plainWords ws) d
      | some why => holdStep p c why d

/-- CLUSTER_STATUS: STEP, WAIT_CAUSE, BP and DETAIL (Tables 2.13 to 2.15). While a run awaits its base checkpoint before step
0 it shows HELD, and in a hold after the commit BARRIER with STEP L − 1 (log entry 86). -/
def clusterStatus (d : Dev) (p c : Nat) : Nat × Nat × Nat × Nat :=
  let T := tileOf d p
  let C := clusterOf T c
  match C.ecc with
  | some (b, det) => (C.step, 8, b, det)
  | none =>
    if !cycleOpen d && !(decide (d.run.st = .running) && held d) || !tileActive d p then (C.step, 7, 0, 0)
    else if C.done || held d then (d.image.l - 1, 6, 0, 0)
    else match fetchStep T c C.step 64 with
      | .error _ => (C.step, 0, 0, 0)
      | .ok ws => match admission d p c d.run.fullPass (plainWords ws) with
        | some (k, b, det) => (C.step, k, b, det)
        | none => (C.step, 0, 0, 0)

def execClusterStep (tile : Fin 528) (cluster : Fin 16) (s : State) : Host.Outcome State Fault Refusal :=
  lift (clusterStep tile cluster) s

end Sys2Proof.Machine
end

