-- ==== Sys2Proof/Machine/Pads.lean ====
section
/-! DEFINITION. TIO pins (R87 to R89, R370, R371): who drives a land, the level it shows, the sample, the output registers. -/

namespace Sys2Proof.Machine

/-- The sensed supply of a bank; 1.2 V where none has been reported (log entry 24). -/
def vddioOf (t : Tio) (b : Nat) : BitVec 2 := tget 1 t.vddio b
/-- A supply in range. -/
def supplied (t : Tio) (pin : Nat) : Bool := vddioOf t (pin / 32) = 1 || vddioOf t (pin / 32) = 2
/-- DRIVE and SLEW of a bank: 0b01 and 0 at reset. -/
def driveOf (t : Tio) (b : Nat) : BitVec 3 := tget 0b010 t.drive b

/-- The pins that the loaded image binds as outputs with a KIND: 2 values, 3 enables. -/
def boundOut (d : Dev) (kind : Nat) : BitVec 256 :=
  (placedTiles d).foldl (fun m (_, T) => (outPorts T).foldl (fun m (_, _, k, pin) =>
    if k = kind then setBit m pin true else m) m) 0
/-- The pins that the loaded image binds as inputs. -/
def boundIn (d : Dev) : BitVec 256 :=
  (placedTiles d).foldl (fun m (_, T) => (List.range 16).foldl (fun m c => (List.range 16).foldl (fun m n =>
    match pinEntry T c n with
    | some pin => setBit m pin true
    | none => m) m) m) 0

/-- The outputs come from the boundary cells (R378). -/
def fromCells (d : Dev) : Bool := jtagTest d && d.pins.jtag ≠ .highz
/-- The level of a land that the module drives. -/
def outLevel (d : Dev) : BitVec 256 := if fromCells d then d.pins.cellOut else d.tio.out
/-- The pins that the module drives: enabled by release, not held at high-Z, supplied, their enable register 1; the enable
register of a pin that is not bound OUT_OE stays 1 while it is driven. Under a test-control instruction the boundary cells say, or none is
driven (HIGHZ). -/
def driving (d : Dev) : BitVec 256 :=
  if d.tio.highZ || (jtagTest d && !fromCells d) then 0
  else
    let m := if fromCells d then d.pins.cellEn else d.tio.enabled &&& d.tio.outEn
    (List.range 8).foldl (fun m b => if supplied d.tio (32 * b) && !d.tio.wait.getLsbD b then m
      else m &&& ~~~(BitVec.ofNat 256 (0xFFFF_FFFF <<< (32 * b)))) m
/-- The bus keepers follow the lands that the module drives. -/
def followPins (d : Dev) : Dev :=
  let m := driving d
  { d with tio := { d.tio with keeper := (d.tio.keeper &&& ~~~m) ||| (outLevel d &&& m) } }

/-- The level that one land shows when it is sampled (R89, R370, R371). -/
def landLevel (env : PinEnv) (mine : BitVec 256) (pin : Nat) (d : Dev) : Bool × Dev :=
  if !supplied d.tio pin then (false, d)
  else
    let m := mine.getLsbD pin
    let e := env.driven.getLsbD pin
    if env.moving.getLsbD pin ∨ (m ∧ e ∧ (outLevel d).getLsbD pin ≠ env.level.getLsbD pin) then takeFreeBit d
    else if m then ((outLevel d).getLsbD pin, d)
    else if e then (env.level.getLsbD pin, d)
    else (d.tio.keeper.getLsbD pin, d)

/-- A sample of the bound pins. -/
def samplePins (env : PinEnv) (d : Dev) : BitVec 256 × Dev :=
  let mine := driving d
  let pins := bitsOf 256 (boundIn d).toNat
  pins.foldl (fun (acc, d) pin =>
    let (v, d) := landLevel env mine pin d
    (setBit acc pin v, d)) ((0 : BitVec 256), d)

/-- The pin-input bits of a cluster from a sample. -/
def clusterPins (T : Tile) (c : Nat) (v : BitVec 256) : BitVec 16 :=
  (List.range 16).foldl (fun a n => setBit a n (match pinEntry T c n with
    | some pin => v.getLsbD pin
    | none => false)) 0
/-- The sample reaches the pin-input bits of every cluster (R33). -/
def deliverSample (v : BitVec 256) (d : Dev) : Dev :=
  let d := { d with tio := { d.tio with sample := v } }
  (activeTiles d).foldl (fun d (p, T) => (List.range 16).foldl (fun d c =>
    updCluster d p c fun C => { C with pins := clusterPins T c v }) d) d

/-- Order 5 at the pins: the values of the design cycle become the outputs (R88); the keepers of driven lands follow. -/
def outputPins (d : Dev) : Dev :=
  followPins { d with tio := { d.tio with out := d.tio.val, outEn := d.tio.en, wait := 0 } }
/-- The bus keepers take the levels that an external driver leaves on lands that the module does not drive. -/
def keepLevels (env : PinEnv) (d : Dev) : Dev :=
  let m := env.driven &&& ~~~(driving d)
  { d with tio := { d.tio with keeper := (d.tio.keeper &&& ~~~m) ||| (env.level &&& m) } }
/-- Written DRIVE and SLEW take effect (R371). -/
def applyDrive (d : Dev) : Dev :=
  { d with tio := { d.tio with drive := d.tio.driveNew.foldl (fun t (b, v) => tset 0b010 t b v) d.tio.drive, driveNew := [] } }

/-- Every TIO pin goes high-Z with its bus keeper, until release enables outputs (R148, R89). -/
def pinsOff (d : Dev) : Dev :=
  { d with tio := { d.tio with enabled := 0, val := 0, en := 0, out := 0, outEn := 0, resV := 0, resE := 0 } }
/-- The output stage of release: pins with an output binding are driven, those bound OUT_OE once their enable is 1 (R156). -/
def pinsOn (d : Dev) : Dev :=
  let on := boundOut d 2 &&& ~~~(boundOut d 3)
  { d with tio := { d.tio with enabled := boundOut d 2, en := d.tio.en ||| on, outEn := d.tio.outEn ||| on } }
/-- The output stage of a rejoin (R157): pins keep their held values; while some region still holds its pins, pins that the
image no longer binds stay with it. -/
def pinsRejoin (d : Dev) : Dev :=
  let on := boundOut d 2 &&& ~~~(boundOut d 3)
  let keep := if (regionsIn d .torn).isEmpty && (regionsIn d .reloading).isEmpty then 0 else d.tio.enabled
  { d with tio := { d.tio with enabled := keep ||| boundOut d 2, en := d.tio.en ||| on, outEn := d.tio.outEn ||| on } }

end Sys2Proof.Machine
end

