-- ==== Sys2Proof/Machine/Trail.lean ====
section
/-! DEFINITION. The trail (chapter 9): records, checkpoints, the trailhead, short sub-rings, rewinds and replay. -/

namespace Sys2Proof.Machine

/-! ## Records (Table 9.1) -/

def logOf (d : Dev) (die : Nat) : List Rec := tget [] d.trail.logRecs die

/-- The 64 pins of a die in a sample. -/
def diePins (v : BitVec 256) (die : Nat) : W64 := (v >>> (64 * die)).setWidth 64
def setDiePins (v : BitVec 256) (die : Nat) (w : W64) : BitVec 256 :=
  (v &&& ~~~(BitVec.ofNat 256 ((2 ^ 64 - 1) <<< (64 * die)))) ||| (w.setWidth 256 <<< (64 * die))
/-- The last PINS record of a design cycle. -/
def pinsRec? (l : List Rec) (n : Nat) : Option W64 :=
  match findLast? (fun r => r.cycle = n && recType r = 5) l with
  | some ⟨_, [_, w]⟩ => some w
  | _ => none
def putPins (die n : Nat) (w : W64) (d : Dev) : Dev := trailPut die n [word [(60, 4, 5)], w] d

/-- A sample is taken for design cycle n: live, or from the replay log (R33, R172, R202). A PINS record is written on each die
whose pins differ from those used in n − 1, or replace an earlier sample for n. -/
def sampleFor (env : PinEnv) (n : Nat) (d : Dev) : Dev :=
  let d := openCycle n d
  if n ≤ d.trail.replay then
    let v := dies.foldl (fun v die => match pinsRec? (logOf d die) n with
      | some w => setDiePins v die w
      | none => v) d.tio.sample
    let d := dies.foldl (fun d die => match pinsRec? (logOf d die) n, pinsRec? (ringOf d die) n with
      | some w, none => putPins die n w d
      | _, _ => d) d
    deliverSample v d
  else
    let (v, d) := samplePins env d
    let d := dies.foldl (fun d die =>
      if diePins v die ≠ diePins d.trail.pinsOld die ∨ diePins v die ≠ diePins d.tio.sample die then putPins die n (diePins v die) d
      else d) d
    deliverSample v (keepLevels env d)

/-- A TOGGLE record of a BP: which STA slots changed and whether the wrap latch did. -/
def toggleWords (v c b : Nat) (wrap : Bool) (chg : BitVec 256) : List W64 :=
  let w (g : Nat) : W64 := (chg >>> (64 * g)).setWidth 64
  let m := (List.range 4).filter fun g => w g ≠ 0
  word [(60, 4, 2), (51, 9, v), (47, 4, c), (41, 6, b), fb 40 wrap, (36, 4, (m.map fun g => 2 ^ g).sum)] :: m.map w
def asmWords (v c : Nat) (a : BitVec 128) : List W64 :=
  [word [(60, 4, 3), (51, 9, v), (47, 4, c)], a.setWidth 64, (a >>> 64).setWidth 64]
/-- A context whose items the trail counts (Table 9.1 COUNT). -/
def counted (g : CtxCfg) : Bool := g.kind = 2 || g.kind = 4 || g.kind = 5

/-- The ASM and COUNT records of design cycle n. -/
def asmRecords (n : Nat) (d : Dev) : Dev :=
  (activeTiles d).foldl (fun d (p, T) => (List.range 16).foldl (fun d c =>
    let C := clusterOf T c
    if C.asm = C.asmOld then d
    else updCluster (trailPut (p / 132) n (asmWords T.vtile c C.asm) d) p c fun C => { C with asmOld := C.asm }) d) d
def countRecords (n : Nat) (d : Dev) : Dev :=
  (placedTiles d).foldl (fun d (p, T) => (ctxsOf T).foldl (fun d (q, g) =>
    let k := doneCount T q
    if !counted g || k = (ctxOf T q).countOld then d
    else updCtx (trailPut (p / 132) n [placeWord 7 T.vtile q (k % 2 ^ 40)] d) p q fun X => { X with countOld := k }) d) d

/-! ## Checkpoints (R194) -/

/-- The cluster part of a checkpoint. -/
def ckptCluster (p : Nat) (T : Tile) (c : Nat) : CkptCluster :=
  let C := clusterOf T c
  { tile := p, cluster := c
    sta := (C.bps.map fun (b, B) => (b, B.sta)).filter fun (_, v) => v ≠ 0
    wraps := C.bps.foldl (fun w (b, B) => setBit w b B.wrap) 0
    asm := C.asm }
/-- A checkpoint of the state as it stands, for committed cycle n; items that a take of an earlier cycle has are taken. -/
def snapshot (n : Nat) (d : Dev) : Ckpt :=
  let tiles := placedTiles d
  { cycle := n
    clusters := tiles.flatMap fun (p, T) => (List.range 16).map fun c => ckptCluster p T c
    pins := d.tio.sample
    counts := tiles.flatMap fun (p, T) => (ctxsOf T).filterMap fun (q, g) =>
      if counted g then some (p, q, doneCount T q) else none
    items := tiles.flatMap fun (p, T) => (ctxsOf T).filterMap fun (q, g) =>
      let X := ctxOf T q
      let n := settledCount T q
      if g.kind = 2 && decide (n < X.items.length) then some (p, q, X.flows.drop n, X.items.drop n) else none }

/-- A cluster's words in a checkpoint. -/
def clusterWords (x : CkptCluster) : List W64 :=
  ((List.range 64).flatMap fun b =>
    let v : BitVec 256 := tget 0 x.sta b
    (List.range 4).map fun g => (v >>> (64 * g)).setWidth 64) ++ [x.wraps, x.asm.setWidth 64, (x.asm >>> 64).setWidth 64]
/-- The words of a die's part of a checkpoint: per cluster 64 × 4 STA words, the wrap latches, the assembler; then the pins,
COUNT words and BASKET records (R194). -/
def ckptWords (d : Dev) (k : Ckpt) (die : Nat) : List W64 :=
  let v (p : Nat) : Nat := (tileOf d p).vtile
  (k.clusters.flatMap fun x => if x.tile / 132 = die then clusterWords x else [])
    ++ [diePins k.pins die]
    ++ (k.counts.filterMap fun (p, q, n) => if p / 132 = die then some (placeWord 7 (v p) q (n % 2 ^ 40)) else none)
    ++ (k.items.flatMap fun (p, q, fs, l) => if p / 132 = die then
        (fs.zip l).flatMap fun (f, x) => [placeWord 6 (v p) q (f <<< 24), x] else [])
/-- Bytes of a die's part with its CKPT word; 2,072 bytes a cluster. -/
def ckptBytes (k : Ckpt) (die : Nat) : Nat :=
  16 + 2072 * (k.clusters.filter fun x => x.tile / 132 = die).length
    + 8 * (k.counts.filter fun x => x.1 / 132 = die).length
    + 16 * ((k.items.filter fun x => x.1 / 132 = die).map fun x => x.2.2.2.length).sum

/-! ## The trailhead (R195, R196) -/

/-- Bytes of records. -/
def recBytes (l : List Rec) : Nat := (l.map fun r => 8 * r.words.length).sum
/-- Bytes that a sub-ring holds from checkpoint H onward, the replay log and a checkpoint being composed included. -/
def ringUsed (d : Dev) (die : Nat) : Nat :=
  recBytes (ringOf d die) + recBytes ((logOf d die).filter fun r => decide (d.run.committed < r.cycle))
    + ((d.trail.ckpts ++ d.trail.composing).map fun k => ckptBytes k die).sum
/-- The size of a sub-ring (R191). -/
def ringSize (d : Dev) : Nat :=
  match hbmRegion? d 1 with
  | some (_, size) => size / 4
  | none => 0
/-- Which sub-rings are short: fewer than 64 MiB free. -/
def shortBits (d : Dev) : BitVec 4 :=
  if trailOn d then dies.foldl (fun m die => setBit m die (decide (ringSize d < ringUsed d die + 64 * 2 ^ 20))) 0 else 0
/-- H moves to a complete checkpoint: the space before it is freed. -/
def moveHead (h cause : Nat) (d : Dev) : Dev :=
  { d with
    trail := { d.trail with head := h, headCause := cause, ckpts := d.trail.ckpts.filter (fun k => decide (h ≤ k.cycle))
                            shown := d.trail.shown.filter (fun x => decide (h ≤ x.cycle))
                            rings := (d.trail.rings.map fun (i, l) => (i, l.filter fun r => decide (h < r.cycle))).filter
                              fun (_, l) => !l.isEmpty }
    bkt := { d.bkt with done := d.bkt.done.filter fun x => decide (h < x.doneCycle) } }
/-- H advances to the oldest newer complete checkpoint while a sub-ring is short; the fuel is the number of checkpoints. -/
def advanceHead : Nat → Dev → Dev
  | 0, d => d
  | n + 1, d =>
    let d := { d with trail := { d.trail with short := shortBits d } }
    if d.trail.short = 0 then d
    else match d.trail.ckpts.find? fun k => decide (d.trail.head < k.cycle) with
      | some k =>
        let d := moveHead k.cycle 1 d
        advanceHead n { d with trail := { d.trail with moved := d.trail.moved + 1 } }
      | none => d
/-- The advance of R196, step 2. -/
def advance (d : Dev) : Dev := advanceHead (d.trail.ckpts.length + 1) d

/-- INTERVAL as it acts: the value sampled at the last barrier, from 10 to 20 (R195). -/
def ckptInterval (d : Dev) : Nat := max 10 (min 20 d.trail.intervalUse)

/-- A checkpoint of the committed cycle n begins to be composed, behind those that already are. -/
def compose (n : Nat) (d : Dev) : Dev := { d with trail := { d.trail with composing := d.trail.composing ++ [snapshot n d] } }
/-- A checkpoint that falls due is skipped while another is being composed (R194). -/
def composeDue (n : Nat) (d : Dev) : Dev :=
  if d.trail.composing.isEmpty then compose n d else { d with trail := { d.trail with skipped := d.trail.skipped + 1 } }
/-- The forced checkpoint of R196, step 1; where the checkpoint that fell due at this barrier is being composed, it is that one (log
entry 90). -/
def composeForced (n : Nat) (d : Dev) : Dev :=
  let d := { d with trail := { d.trail with forced := d.trail.forced + 1 } }
  if d.trail.composing.any (·.cycle = n) then d else compose n d

/-- What the barrier of n does after its records: a checkpoint that is due, by the INTERVAL of the barrier before, then the check of
the free space with PIN as it stands (R194 to R196). The Bool says that the module holds in the trail-held sub-state. -/
def trailSpace (n : Nat) (d : Dev) : Bool × Dev :=
  let due := n % 2 ^ ckptInterval d = 0
  let d := { d with trail := { d.trail with intervalUse := d.trail.interval, pinUse := d.trail.pin } }
  if !trailOn d || d.trail.empty then (false, d)
  else
    let d := if due then composeDue n d else d
    let d := { d with trail := { d.trail with short := shortBits d } }
    if d.trail.short = 0 then (false, d)
    else
      let newer := d.trail.ckpts.any fun k => decide (d.trail.head < k.cycle)
      let d := if newer then d else composeForced n d
      if d.trail.pinUse then (true, d) else (false, advance d)

/-- The checkpoint that a rejoin asks for, one of each rejoin barrier (R197). -/
def reloadCkpt (n : Nat) (d : Dev) : Dev :=
  if trailOn d && !d.trail.empty then compose n { d with trail := { d.trail with reload := d.trail.reload ++ [n] } } else d

/-- A complete checkpoint that is due for the twin goes into transfer, or is skipped while one is (R283). -/
def mirrorDue (k : Ckpt) (d : Dev) : Dev :=
  if !d.pair.mirror || d.pair.mirrorStopped || k.cycle % 2 ^ max d.pair.mint (ckptInterval d) ≠ 0 then d
  else if d.pair.inTransfer.isSome then { d with pair := { d.pair with mirrorSkipped := d.pair.mirrorSkipped + 1 } }
  else { d with pair := { d.pair with inTransfer := some k } }

/-- The base checkpoint of committed cycle c (R192). -/
def baseCkpt (d : Dev) : Dev :=
  let k := snapshot d.run.committed d
  mirrorDue k (trailWrites { d with trail := { d.trail with
    ckpts := [k], ckptLast := k.cycle, empty := false, head := k.cycle, headCause := 0, composing := [], reload := [], rings := []
    replay := 0, logRecs := [], shown := [shownNow k.cycle d] } })
/-- Whether a run that starts must first write the base checkpoint. -/
def baseDue (d : Dev) : Bool := trailOn d && d.trail.empty

/-! ## Rewind (R199 to R205) -/

/-- The checks of Table 9.2: the first code that applies, 0 for none. -/
def rewindCheck (t : Nat) (d : Dev) : Nat :=
  if d.run.st ≠ .stopped then 0x0004
  else if !trailOn d || d.trail.empty then 0x0410
  else if !(regionsIn d .torn).isEmpty then 0x0411
  else if (List.range 32).any (fun r => (regionOf d r).rejoin && !(regionOf d r).repair) then 0x0412
  else if d.run.committed < t then 0x0413
  else if t < d.trail.head then 0x0414
  else 0

/-- Order 1 of Table 9.3: the REWIND is accepted. -/
def beginRewind (t : Nat) (d : Dev) : Dev :=
  enterState .rewinding { d with trail := { d.trail with rewindBytes := 0, target := t, rewinding := true, banksTaken := false } }
/-- BASKET_DONE hands over the completions posted up to t, and the banks pass to TRAIL (orders 1 and 2): the rewind can no longer be
ended by an ABORT (R205). The hand-over comes with the banks, so that an ABORT before them changes nothing (log entry 90). -/
def takeBanks (d : Dev) : Dev :=
  let t := d.trail.target
  let d := { d with trail := { d.trail with banksTaken := true } }
  let d := (placedTiles d).foldl (fun d (p, T) => (ctxsOf T).foldl (fun d (q, g) =>
    if g.kind ≠ 3 then d
    else
      let hand := (ctxOf T q).ents.filter fun e => e.item && decide (e.cycle ≤ t)
      let d := hand.foldl (fun d e => stage (g.base % 4096) e.cycle e.data d) d
      updCtx d p q fun X => { X with ents := (X.ents.map fun e =>
        if e.item && decide (e.cycle ≤ t) then { e with item := false } else e).filter fun e => e.item || e.op ≠ 1 }) d) d
  handBanks .trail d
/-- Order 2 of a rewind that has been accepted. -/
def rewindTakes (d : Dev) : Dev := if d.run.st = .rewinding && !d.trail.banksTaken then takeBanks d else d

/-- A REWIND command whose turn has come: refused, or begun. -/
def startRewind (t : Nat) (d : Dev) : Dev :=
  let code := rewindCheck t d
  if code = 0 then beginRewind t d else endLong code [] d

/-- One MEM_UNDO record puts its old word back. -/
def undoWord (r : Rec) (d : Dev) : Dev :=
  match r.words with
  | [_, w, old] =>
    match tileOfV? d (fld w 59 51) with
    | none => d
    | some p =>
      let g := ctxCfg (tileOf d p) (fld w 50 42)
      let a := g.base + fld w 37 0 * g.wsize
      if g.kind = 0 then updTile d p fun T => { T with mem := mwrite T.mem a g.wsize old.toNat }
      else putHbm a g.wsize old.toNat d
  | _ => d

/-- A cluster set from its part of a checkpoint, its rows, ports and window cleared. -/
def restoreCluster (k : CkptCluster) (C : Cluster) : Cluster :=
  { C with
    bps := (List.range 64).foldl (fun t b =>
      tset Bp.reset t b { Bp.reset with sta := tget 0 k.sta b, wrap := k.wraps.getLsbD b }) []
    step := if C.ecc.isSome then C.step else 0, begun := false, done := false, fetched := false, fireHeld := false
    asm := k.asm, asmOld := k.asm, window := 0, order := []
    ports := (C.ports.map fun (i, P) => (i, { P with next := none, got := false })).filter fun (_, P) => P ≠ InPort.reset }

/-- TOGGLE and ASM records move a cluster forward by their design cycle. -/
def applyRec (d : Dev) (r : Rec) : Dev :=
  match r.words with
  | w :: ws =>
    match tileOfV? d (fld w 59 51) with
    | none => d
    | some p =>
      let c := fld w 50 47
      if fld w 63 60 = 2 then
        let gs := bitsOf 4 (fld w 39 36)
        let chg := (gs.zip ws).foldl (fun (m : BitVec 256) (g, x) => m ||| (x.setWidth 256 <<< (64 * g))) 0
        updCluster d p c fun C => { C with bps := tupd Bp.reset C.bps (fld w 46 41) fun B =>
          { B with sta := B.sta ^^^ chg, wrap := B.wrap ^^ bit w 40 } }
      else if fld w 63 60 = 3 then
        match ws with
        | [lo, hi] => updCluster d p c fun C => { C with asm := hi ++ lo, asmOld := hi ++ lo }
        | _ => d
      else d
  | [] => d

/-- The count of a context at t: its last COUNT record of k + 1 to t, else the checkpoint's. -/
def countAt (k : Ckpt) (l : List Rec) (p v q : Nat) : Nat :=
  match findLast? (fun r => match r.words with
    | w :: _ => fld w 63 60 = 7 && fld w 59 51 = v && fld w 50 42 = q
    | [] => false) l with
  | some ⟨_, w :: _⟩ => fld w 39 0
  | _ => ((k.counts.find? fun x => x.1 = p && x.2.1 = q).map (·.2.2)).getD 0
/-- The items of a BASKET_IN context at t, with their flows: those of the checkpoint and of the BASKET records of k + 1 to t,
less the ones taken. -/
def itemsAt (k : Ckpt) (l : List Rec) (p v q : Nat) : List (Nat × W64) :=
  let base := match k.items.find? fun x => x.1 = p && x.2.1 = q with
    | some (_, _, fs, xs) => fs.zip xs
    | none => []
  let more := l.filterMap fun r => match r.words with
    | [w, x] => if fld w 63 60 = 6 && fld w 59 51 = v && fld w 50 42 = q then some (fld w 41 24, x) else none
    | _ => none
  (base ++ more).drop (countAt k l p v q - ((k.counts.find? fun x => x.1 = p && x.2.1 = q).map (·.2.2)).getD 0)

/-- Queue contexts of a tile at t (order 5). -/
def restoreCtxs (k : Ckpt) (l : List Rec) (p : Nat) (T : Tile) : Tile :=
  { T with ctxs := (ctxsOf T).foldl (fun t (q, g) =>
      let n := if counted g then countAt k l p T.vtile q else 0
      let X := ctxOf T q
      let its := if g.kind = 2 then itemsAt k l p T.vtile q else []
      tset Ctx.reset t q { Ctx.reset with items := its.map (·.2), flows := its.map (·.1), overrun := X.overrun
                                          underrun := X.underrun, last := X.last, count := n, countOld := n }) [] }

/-- The pin sample for design cycle t + 1 as the trail has it. -/
def sampleAt (k : Ckpt) (t : Nat) (d : Dev) : BitVec 256 :=
  dies.foldl (fun v die =>
    match findLast? (fun r => recType r = 5 && decide (k.cycle < r.cycle) && decide (r.cycle ≤ t + 1)) (ringOf d die ++ logOf d die) with
    | some ⟨_, [_, w]⟩ => setDiePins v die w
    | _ => v) k.pins

/-- The early buffer of an exchange link is emptied; the received blocks of a STREAM link stay (R201, R261). -/
def emptyEarly (E : Link) : Link := if cfgMode E.cfg = 1 then E else { E with rx := [], freed := E.freed + E.rx.length }
/-- Orders 3 to 9 of Table 9.3, from committed cycle c to t; what delays Basket (order 7) delays the rewind, whose orders 3 to 6 a later try
only repeats. -/
def finishRewind (d : Dev) : Dev :=
  let t := d.trail.target
  let c := d.run.committed
  match findLast? (fun k : Ckpt => decide (k.cycle ≤ t)) d.trail.ckpts with
  | none => d
  | some k =>
    let undo := dies.map fun die => (ringOf d die).reverse.filter fun r => recType r = 4 && decide (t < r.cycle)
    let redo := dies.map fun die => (ringOf d die).filter fun r =>
      recType r ≠ 4 && decide (k.cycle < r.cycle) && decide (r.cycle ≤ t)
    let d := undo.flatten.foldl (fun d r => undoWord r d) d
    let d := k.clusters.foldl (fun d x => updCluster d x.tile x.cluster (restoreCluster x)) d
    let d := redo.flatten.foldl applyRec d
    let d := (placedTiles d).foldl (fun d (p, _) => updTile d p (restoreCtxs k (redo.getD (p / 132) []) p)) d
    let bytes := ((undo ++ redo).map recBytes).sum + (dies.map fun die => ckptBytes k die).sum
    let d := { d with
      tiles := (d.tiles.map fun (p, T) => (p, { T with horizon := [] }))
      links := (d.links.map fun (l, E) => (l, { emptyEarly E with horizons := [], linkH := 0, eocIn := false, eocSent := false })).filter fun (_, E) => E ≠ Link.reset
      exch := { d.exch with mesh := [], refresh := [], refreshLink := [] } }
    let (done, d) := basketRewind t d
    if !done then d
    else
    let d := handBanks .fabric (showEnd t d)
    let log := dies.map fun die =>
      ((ringOf d die).filter fun r => decide (recType r ≥ 5) && decide (t < r.cycle) && decide (r.cycle ≤ c))
        ++ (logOf d die).filter fun r => decide (c < r.cycle) && decide (r.cycle ≤ d.trail.replay)
    let h := max c d.trail.replay
    let v := if t < h then sampleAt k t d else d.tio.sample
    let d := { d with trail := { d.trail with
      rings := (d.trail.rings.map fun (i, l) => (i, l.filter fun r => decide (r.cycle ≤ t))).filter fun (_, l) => !l.isEmpty
      logRecs := (dies.zip log).filter fun (_, l) => !l.isEmpty
      ckpts := d.trail.ckpts.filter fun k => decide (k.cycle ≤ t)
      composing := d.trail.composing.filter fun k => decide (k.cycle ≤ t)
      ckptLast := k.cycle, replay := h, lastRewind := t, rewindBytes := w64 bytes, banksTaken := false, rewinding := false
      repairPending := false } }
    let d := (List.range 32).foldl (fun d r => if (regionOf d r).repair then updRegion d r fun R =>
      { R with st := .active, rejoin := false, repair := false } else d) d
    let d := { d with run := { d.run with committed := t, midCycle := false, fullNext := true }
                      tio := { d.tio with sample := v } }
    let d := enterState .stopped (rewindSession d)
    endLong 0 [d.trail.rewindBytes] d

/-! ## Commands -/

/-- A REWIND (R199): it waits for the checkpoint of a rejoin (R197). -/
def rewindCmd (c : Cmd) (d : Dev) : Dev :=
  let t := (c.par 1).toNat
  let d := startLong 4 c d
  if !d.trail.reload.isEmpty && decide (d.run.st = .stopped) then { d with trail := { d.trail with target := t, rewinding := true } }
  else startRewind t d
def execRewind (seat : Seat) (s : State) : Host.Outcome State Fault Refusal := lift (execCmd seat 0x0401 rewindCmd) s

/-- The trail engine reads the TRAIL region outside a rewind: for the checkpoint that it composes, the replay log, a checkpoint on its
way to the twin. -/
def engineReads (d : Dev) : Bool := d.trail.composing ≠ [] || inReplay d || d.pair.inTransfer.isSome
/-- The rewind completes; an uncorrectable HBM error on a trail read ends it in FAULTED, and takes a module that is not rewinding there
too while the trail engine reads (R181, R205; log entry 96). -/
def rewindComplete (hbmError : Bool) (d : Dev) : Dev :=
  if d.run.st ≠ .rewinding then (if hbmError && engineReads d then enterFaulted 0x0325 d else d)
  else if hbmError then enterFaulted 0x0325 (rewindTakes d)
  else finishRewind (rewindTakes d)
def execRewindComplete (hbmError : Bool) (s : State) : Host.Outcome State Fault Refusal := lift (rewindComplete hbmError) s

/-- The oldest checkpoint being composed is complete (R194): the trailhead moves to one that a rejoin asked for, the
last of its cycle, or advances, by the PIN of the last barrier (R196, R197); a REWIND that waits for it goes on. -/
def checkpointDone (d : Dev) : Dev :=
  match d.trail.composing with
  | [] => d
  | k :: rest =>
    let d := mirrorDue k (trailWrites { d with trail := { d.trail with composing := rest, ckpts := d.trail.ckpts ++ [k], ckptLast := k.cycle } })
    let d := if d.trail.reload.contains k.cycle && !rest.any (·.cycle = k.cycle) then
        moveHead k.cycle 2 { d with trail := { d.trail with reload := d.trail.reload.filter fun m => decide (k.cycle < m) } }
      else if d.trail.short ≠ 0 ∧ !d.trail.pinUse then advance d
      else d
    if d.trail.rewinding && decide (d.run.st = .stopped) && d.trail.reload.isEmpty then
      startRewind d.trail.target { d with trail := { d.trail with rewinding := false } }
    else d
def execCheckpointComplete (s : State) : Host.Outcome State Fault Refusal := lift checkpointDone s

end Sys2Proof.Machine
end

