-- ==== Sys2Proof/Machine/Barrier.lean ====
section
/-! DEFINITION. The end of a design cycle (R46, Table 2.9): the commit, what it records, stops, holds, rejoins and the start of
the next design cycle. -/

namespace Sys2Proof.Machine

/-! ## The commit (R45, R31) -/

/-- The stored commit entries of BP b: (entry, word). Entries of unlisted lines are 0: they commit RES[0] where RES[0] is 1. -/
def commitEntries (T : Tile) (c b : Nat) : List (Nat × BitVec 32) :=
  (storeOf T kCOMMIT c).flatMap fun (i, l) =>
    if i / 64 = b then (List.range 4).map fun j => (i % 64 * 4 + j, (l >>> (32 * j)).setWidth 32) else []

/-- The state slots after the commit with the entries corrected on fetch, or the first uncorrectable entry. -/
def commitSta (L : Nat) (B : Bp) : List (Nat × BitVec 32) → BitVec 256 → List Nat → Except Nat (BitVec 256 × List Nat)
  | [], sta, fixes => .ok (sta, fixes)
  | (k, e) :: r, sta, fixes =>
    match usedCommit L e with
    | none => .error k
    | some (en, src, fix) =>
      commitSta L B r (setBit sta k (if opVal B en then opVal B src else B.sta.getLsbD k)) (if fix then fixes ++ [k] else fixes)

/-- The new state slots of a BP (R45). -/
def bpCommit (T : Tile) (c b L : Nat) (B : Bp) : Except Nat (BitVec 256 × List Nat) :=
  commitSta L B (commitEntries T c b) (if B.res.getLsbD 0 then ~~~0 else B.sta) []

/-- The uncorrectable commit entry of a cluster that R48 names, as (BP, entry): the lowest BP's lowest one (log entry 86). -/
def badCommit (T : Tile) (c L : Nat) : Option (Nat × Nat) :=
  (storeOf T kCOMMIT c).findSome? fun (i, l) =>
    ((List.range 4).find? fun j => (usedCommit L ((l >>> (32 * j)).setWidth 32)).isNone).map fun j => (i / 64, i % 64 * 4 + j)
/-- That of each cluster of the ACTIVE regions that has one: (tile, cluster, BP, entry). -/
def badCommits (d : Dev) : List (Nat × Nat × Nat × Nat) :=
  (activeTiles d).flatMap fun (p, T) => (List.range 16).filterMap fun c =>
    (badCommit T c d.image.l).map fun (b, k) => (p, c, b, k)
/-- The entries of a cluster that are corrected on fetch: (line, place in the line). -/
def fixedCommits (T : Tile) (c L : Nat) : List (Nat × Nat) :=
  (storeOf T kCOMMIT c).flatMap fun (i, l) =>
    ((List.range 4).filter fun j => match usedCommit L ((l >>> (32 * j)).setWidth 32) with
      | some (_, _, fix) => fix
      | none => false).map fun j => (i, j)
/-- Every BP of the ACTIVE regions fetches its entries at the barrier: the corrected fetches count and are noted (R47, R163). -/
def countCommitFixes (d : Dev) : Dev :=
  (activeTiles d).foldl (fun d (p, T) => (List.range 16).foldl (fun d c =>
    let l := fixedCommits T c d.image.l
    if l.isEmpty then d
    else l.foldl (fun d (i, j) => noteRewrite p (storeKey kCOMMIT c) i j d)
      (updTile d p fun T => { T with eccCorrected := T.eccCorrected + w64 l.length })) d) d

/-- One BP after the commit: STA with its change bits, the wrap latch, RES and IMP no longer valid (R31, R45). -/
def committedBp (L : Nat) (sta : BitVec 256) (B : Bp) : Bp :=
  { B with sta := sta, staChg := sta ^^^ B.sta, wrap := B.res.getLsbD (L - 1), resValid := 0, impValid := 0 }

/-- The commit of one BP, with its TOGGLE record. -/
def commitBp (p c b n : Nat) (d : Dev) : Dev :=
  let T := tileOf d p
  let L := d.image.l
  let B := bpOf (clusterOf T c) b
  match bpCommit T c b L B with
  | .error _ => d
  | .ok (sta, _) =>
    let B' := committedBp L sta B
    let d := updCluster d p c fun C => { C with bps := tset Bp.reset C.bps b B' }
    if B'.staChg = 0 ∧ B'.wrap = B.wrap then d
    else trailPut (p / 132) n (toggleWords T.vtile c b (B'.wrap != B.wrap) B'.staChg) d

/-- The BPs of a cluster that a commit can change: those with stored entries or rows. -/
def commitBps (T : Tile) (c : Nat) : List Nat :=
  (List.range 64).filter fun b =>
    (clusterOf T c).bps.any (·.1 = b) || (storeOf T kCOMMIT c).any fun (i, _) => i / 64 = b

/-- The commit of every ACTIVE region; its clusters return to step 0. -/
def commitAll (n : Nat) (d : Dev) : Dev :=
  let full := d.run.fullPass
  (activeTiles d).foldl (fun d (p, _) =>
    let d := (List.range 16).foldl (fun d c =>
      let d := (commitBps (tileOf d p) c).foldl (fun d b => commitBp p c b n d) d
      updCluster d p c fun C =>
        { C with step := 0, begun := false, done := false, fetched := false, fireHeld := false, window := 0 }) d
    if full then updTile d p fun T => { T with fullPasses := T.fullPasses + 1 } else d) d

/-! ## Collection (Table 2.9, order 3) -/

/-- COUNT and STOP_AT matches, regions waiting to become TORN. -/
def collect (n : Nat) (d : Dev) : Dev :=
  let d := recordHalts d
  let r := d.run
  let q := if r.stopAtEn ∧ r.stopAt = n then setBit r.reqs cSTOP_AT true else r.reqs
  let q := if r.modeRun ∧ r.countRun ≤ r.progress + 1 then setBit q cCOUNT true else q
  let q := if (List.range 32).any (fun i => (regionOf d i).tornPend || decide ((regionOf d i).st = .torn)) then
      setBit q cREGION_TORN true else q
  { d with run := { r with reqs := q } }

/-! ## Rejoins (R157, R128) -/

/-- What a cluster of such a tile keeps: its counters and, until its tile is reloaded, an uncorrectable word (R48, R49). -/
def vacateCluster (C : Cluster) : Cluster :=
  { Cluster.reset with step := if C.ecc.isSome then C.step else 0, ecc := C.ecc, evals := C.evals, quiets := C.quiets }
/-- The banks of a tile whose load is not complete: OWNER reads SERVICE (R155). -/
def serviceBanks (T : Tile) : List (Nat × Bank) :=
  (T.banks.map fun (b, B) => (b, { Bank.reset with refused := B.refused })).filter fun (_, B) => B ≠ Bank.reset
/-- A tile that no virtual tile is placed on any more: its counters stand until a load of the tile completes (R49, R91,
R122). -/
def vacate (T : Tile) : Tile :=
  { T with
    placed := false, moving := false, vtile := 0, ldiv := 0, stores := [], frames := [], ctxs := [], horizon := []
    routes := [], markRoutes := [], taps := 0, loaded := false, banks := serviceBanks T
    clusters := (T.clusters.map fun (c, C) => (c, vacateCluster C)).filter fun (_, C) => C ≠ Cluster.reset }
/-- The region that a moved virtual region leaves (Table 7.1); it no longer waits for anything. One that a load under way names stays
RELOADING: it is that load's destination (R148, R154). TORN_PENDING and TORN_REASON stay (log entry 87). -/
def leaveRegion (r : Nat) (d : Dev) : Dev :=
  let st : RegionSt := if (regionOf d r).st = .reloading then .reloading else .isolated
  let d := updRegion (leaveActive st r d) r fun R =>
    { R with placed := false, vregion := 0xFF, rejoin := false, repair := false, moveFrom := none }
  (regionTiles d.fuse r).foldl (fun d p => updTile d p vacate) d
/-- The other regions that hold the virtual region of region r. -/
def otherHolders (d : Dev) (r : Nat) : List Nat :=
  (List.range 32).filter fun q => q ≠ r && (regionOf d q).placed && (regionOf d q).vregion = (regionOf d r).vregion
/-- The destination of a move takes the virtual region over, with the routes of the new placement; every other region that holds it is
left, also one that never took it over itself (R128). -/
def completeMove (r : Nat) (d : Dev) : Dev :=
  match (regionOf d r).moveFrom with
  | none => d
  | some _ =>
    let d := (otherHolders d r).foldl (fun d q => leaveRegion q d) d
    let d := (regionTiles d.fuse r).foldl (fun d p => updTile d p fun T => { T with moving := false }) d
    writeRoutes (updRegion d r fun R => { R with moveFrom := none })
/-- Regions that wait to rejoin, repaired ones apart, and those whose virtual region is about to leave them (R128). -/
def rejoining (d : Dev) : List Nat := (List.range 32).filter fun r =>
  (regionOf d r).rejoin && !(regionOf d r).repair && !(otherHolders d r).any fun q => (regionOf d q).moveFrom.isSome
/-- They become ACTIVE, with their pin drivers but before a staged release, which has its own output stage; the next
design cycle is a full pass, the ingresses refresh them (Table 7.5, R85), and the trail composes a checkpoint (R197). -/
def rejoinAll (m : Nat) (d : Dev) : Dev :=
  match rejoining d with
  | [] => d
  | rs =>
    let d := rs.foldl (fun d r => updRegion (completeMove r d) r fun R =>
      { R with st := .active, rejoin := false, since := m }) d
    let d := { (if d.run.st = .loaded then d else pinsRejoin d) with run := { d.run with fullNext := true } }
    injectRefresh rs (reloadCkpt m (deliverSample d.tio.sample d))

/-! ## Pace (R187, R188) -/

/-- How many TSC cycles after the cap's first design cycle began the next one may begin (R188). -/
def paceDue (d : Dev) : Nat :=
  let c := d.run.paceCapUse
  if c = 0 then 0 else ((curCycle d - d.run.capCycle) * 100_000_000 + c - 1) / c
/-- PACE_TARGET and PACE_CAP take effect at a barrier; a changed cap counts from the next design cycle. -/
def takePace (d : Dev) : Dev :=
  let r := d.run
  let d := { d with run := { r with paceTargetUse := r.paceTarget, paceCapUse := r.paceCap } }
  if r.paceCap = r.paceCapUse then d
  else { d with run := { d.run with capTicks := 0, capCycle := curCycle d } }

/-- The next design cycle begins once nothing holds the module (R178). -/
def resume (d : Dev) : Dev :=
  if held d then d
  else beginCycle (if d.run.capCycle = curCycle d then { d with run := { d.run with capTicks := 0 } } else d)

/-! ## The barrier -/

/-- Order 6 with a stop: the fabric drains toward STOPPED, delivery closes (R174, R175, R238). -/
def stopHere (d : Dev) : Dev :=
  let set := d.run.reqs
  let d := enterState .stopping { d with run := { d.run with draining := true, fullPass := false }, bkt := { d.bkt with delivOpen := false } }
  setCauses set d

/-- What a barrier does once no commit entry is uncorrectable. -/
def endCycle (env : PinEnv) (n : Nat) (d : Dev) : Dev :=
  let full := d.run.fullPass
  let d := collect n d
  let d := commitAll n (countRecords n (asmRecords n (captureBarrier full n d)))
  let old := d.tio.sample
  let d := sampleFor env (n + 1) { d with trail := { d.trail with pinsOld := old } }
  let d := applyDrive (outputPins (exchBarrier d))
  let d := { d with run := { d.run with committed := n, progress := (d.run.progress + 1) % 2 ^ 48
                                        paceCommits := d.run.paceCommits + 1 }
                    clk := { d.clk with failBarrier := false } }
  let d := if bit d.trc.srcEn 10 then traceRun 4 0 d else d
  let d := raiseRing { d with bkt := { d.bkt with ringDue := true } }
  let (short, d) := trailSpace n d
  let d := isolateNamed (tearPending (takePace d))
  if d.run.reqs ≠ 0 then stopHere d
  else
    let d := rejoinAll n d
    let d := { d with run := { d.run with fullPass := d.run.fullNext, fullNext := false } }
    resume (setHold short (decide (d.run.capTicks < paceDue d)) d)

/-- R46: the barrier, once every ACTIVE cluster has finished and every partner's marker is in; the hub takes no part while its clocks are
stopped (R15, R350), and in replay it waits until Basket has delivered what the log holds (R237). An uncorrectable commit entry
abandons the design cycle (R48). -/
def barrier (env : PinEnv) (d : Dev) : Dev :=
  if cycleOpen d && !d.clk.frozen && allDone d && markersIn d then
    let n := curCycle d
    let d := flushReplay (drainMesh d)
    if replayLeft d then d
    else
    let d := countCommitFixes d
    match badCommits d with
    | [] => endCycle env n d
    | l =>
      let d := l.foldl (fun d (p, c, b, k) => eccMark p c b (0x800 + k) d) (recordHalts d)
      breakCycle (setBit d.run.reqs cREGION_TORN true) d
  else d

def execBarrier (env : PinEnv) (s : State) : Host.Outcome State Fault Refusal := lift (barrier env) s

end Sys2Proof.Machine
end

