-- ==== Sys2Proof/Machine/Lanes.lean ====
section
/-! DEFINITION. Serial lanes and links (chapter 12): configuration, training, retrains, frames with CRC-16, replay and credit,
loopbacks, patterns and the eye scan. Lanes 1,024 to 1,031 are those of the pair link, which is kept under 1,024. -/

namespace Sys2Proof.Machine

/-! ## Events and updates -/

/-- The pulses of the links whose state changed, with their lanes (R252, source 0x100 + g). -/
def linkEvents (old new : Dev) : List Event :=
  (enabledLinks old).filterMap fun l =>
    if stateOf ((members old l).map (laneOf old)) = stateOf ((members old l).map (laneOf new)) then none
    else some (newEvent new (0x100 + l / 64) true true l)
/-- The outcome of a command that may change link states; a reset sends no events. -/
def withLinks (f : Dev → Dev) (d : Dev) : Dev :=
  let d' := f d
  if d'.clk.stage < d.clk.stage then d' else { d' with events := d'.events ++ linkEvents d d' }

/-- The protocol logic of a lane works while the NOC clock runs and its power domain is not OFF; the pair lanes lie in domain 14 (R348,
R358). -/
def lanesRun (d : Dev) (lane : Nat) : Bool := nocOn d.clk && decide (domainState d (if lane < 1024 then 8 + lane / 256 else 14) ≠ 2)
/-- What that logic does when something happens on a lane: nothing while it stands. -/
def onLane (lane : Nat) (f : Dev → Dev) (d : Dev) : Dev := if lanesRun d lane then f d else d

def updLanes (ls : List Nat) (f : Lane → Lane) (d : Dev) : Dev := ls.foldl (fun d l => updLane d l f) d

/-! ## Lane transitions (Table 12.5) -/

def endScan (A : Lane) : Lane :=
  if A.st = .scan then { A with scanStart := false, scanDone := true, scanInvalid := true } else A
/-- A lane hunts for block lock. -/
def hunt (A : Lane) : Lane :=
  { endScan A with st := .training, trains := 0, lastTrain := 0, gotAck := false, signal := false }
def laneDown (A : Lane) : Lane :=
  if A.st = .loopback then A else { A with st := .down, scanStart := false, trains := 0, gotAck := false }

/-- A message of checkpoint mirroring (Table 13.3). -/
def isMirror (ws : List W64) : Bool := ws.head?.any fun w => fld w 63 56 = 2 || fld w 63 56 = 3

/-- Buffers, numbers and credit of a link as an enable or a LINK_CTRL.DOWN leaves them (R257). -/
def resetProto (E : Link) : Link :=
  { E with txSeq := 0, replay := [], resend := 0, rxSeq := 0xFFF, nakPending := false, nakRow := 0
           nakInRow := 0, credit := 4096, creditSeen := 0, freed := 0, everUp := false }

/-- The pair link's buffers are discarded, and with them the mirror under way; the next one takes its slot, and the other slot keeps the
last complete mirror (R257, R283). -/
def dropMirror (d : Dev) : Dev :=
  updPair (fun P => { P with inTransfer := none, mirrorQueued := false, outSlot := P.outSlot ^^ P.mirrorQueued, outbox := P.outbox.filter fun ws => !isMirror ws }) d
/-- A link starts afresh. -/
def resetLink (l : Nat) (d : Dev) : Dev :=
  let d := updLink d l resetProto
  if l = 1024 then dropMirror d else d

/-- A link goes DOWN; its lanes take up to 1 µs for it (R253). -/
def goDown (l : Nat) (d : Dev) : Dev :=
  let was := (members d l).any fun i => (laneOf d i).st ≠ .down && (laneOf d i).st ≠ .loopback
  let up := decide (linkState d l = 3)
  let d := updLanes (members d l) laneDown d
  updLink d l fun E => { E with training := false, retraining := false, entering := if was then (members d l).length else E.entering
                                failsAtLoss := if up then E.retrainFails else E.failsAtLoss }
/-- A training failure (Table 12.8). -/
def failTraining (code l : Nat) (d : Dev) : Dev := goDown l (logEntry code none (updLink d l fun E => { E with reason := code }))

/-- Every member that is not DOWN or in a loopback enters TRAINING. -/
def retrainLanes (l : Nat) (d : Dev) : Dev :=
  updLanes ((members d l).filter fun i => let A := laneOf d i
    A.st = .training || A.st = .locked || laneUp A) hunt d
/-- A retrain from UP (R256). -/
def retrain (code l : Nat) (d : Dev) : Dev :=
  retrainLanes l (updLink d l fun E =>
    { E with reason := code, retrains := E.retrains + 1, retraining := true, failsAtLoss := E.retrainFails })

/-- The reference group of a link (R245, R280). -/
def groupOf (l : Nat) : Nat := if l = 1024 then 0 else l / 64
/-- Why TRAIN is refused: the start-up code, or LINK_NO_REFCLK (R253, R355). -/
def trainCode (d : Dev) (l : Nat) : Nat :=
  if d.clk.stage < 5 then 0x0905
  else if d.clk.refclk.getLsbD (groupOf l) && d.clk.calibrated.getLsbD (groupOf l) then 0 else 0x0702

/-- The links, enabled or not, whose lanes are entering DOWN and hold a lane. -/
def enteringLinks (d : Dev) (lane : Nat) : List Nat :=
  d.links.filterMap fun (l, E) => if decide (l ≤ lane) && decide (lane < l + E.entering) then some l else none
/-- A lane of a link is still entering DOWN, as a member of this link or of another (R253). -/
def lanesEntering (d : Dev) (l : Nat) : Bool := (members d l).any fun i => !(enteringLinks d i).isEmpty
/-- LINK_CTRL.TRAIN (R253); a pair link that found a wrong twin waits for PAIR_CFG (R280). -/
def trainLink (l : Nat) (d : Dev) : Dev :=
  if !cfgOn (linkCfg d l) || (l = 1024 && d.pair.wrongTwin) then d
  else if lanesEntering d l then updLink d l fun E => { E with restart := true }
  else if linkState d l ≠ 0 then d
  else
    let code := trainCode d l
    if code ≠ 0 then logEntry code none (updLink d l fun E => { E with reason := code })
    else
      let d := updLink { d with pins := { d.pins with lanesIdle := false } } l fun E =>
        { E with training := true, retraining := false, atFull := false }
      updLanes ((members d l).filter fun i => (laneOf d i).st = .down) hunt d

/-- The lanes of a link have reached DOWN: the TRAINs that waited for them alone are applied (R253, R360). -/
def lanesReached (lane : Nat) (d : Dev) : Dev :=
  let waits := (enabledLinks d ++ [1024]).filter fun l => (linkOf d l).restart && lanesEntering d l
  let d := (enteringLinks d lane).foldl (fun d l => updLink d l fun E => { E with entering := 0 }) d
  waits.foldl (fun d l => if lanesEntering d l then d else trainLink l (updLink d l fun E => { E with restart := false })) d

/-! ## Configuration and control writes (R246, R264) -/

/-- The lane and link writers of R268. -/
def laneWriter (m : Master) : Bool := byOneOf m [.manager, .board]
/-- The states in which a used link may not be taken out of UP (R264). -/
def inUse (d : Dev) (l : Nat) : Bool :=
  (d.run.st = .releasing || d.run.st = .running || d.run.st = .stopping || d.run.st = .rewinding)
    && linkState d l = 3 && (usedLinks d).contains l
def refuseInUse (l : Nat) (d : Dev) : Dev :=
  logEntry 0x0712 none (updLink d l fun E => { E with inUse := true, reason := 0x0712 })

/-- An enabled link other than l that shares a lane with [l, l + w). -/
def overlaps (d : Dev) (l w : Nat) : Bool :=
  (enabledLinks d).any fun k => k ≠ l && decide (k < l + w) && decide (l < k + cfgLanes (linkOf d k).cfg)
/-- LINK_CFG accepted: counters clear; an enable starts the link afresh. Words that a link still holds when it is disabled or changes its
MODE are gone (R261; log entry 31). -/
def takeCfg (l : Nat) (v : W64) (d : Dev) : Dev :=
  let old := (linkOf d l).cfg
  let was := cfgOn old
  let d := if was && !cfgOn v then updLink (goDown l d) l fun E => { resetProto E with restart := false } else d
  let d := updLink d l fun E => { E with cfg := v, replays := 0, crcErrors := 0, retrains := 0, retrainFails := 0
                                         creditStall := 0, replayStall := 0, failsAtLoss := 0 }
  let d := if cfgOn v && was && cfgMode v = cfgMode old then d else updLink d l fun E => { E with egress := [], rx := [] }
  if cfgOn v && !was then
    updLanes (members d l) (fun A => { A with adapted := false })
      (updLink d l fun E => { resetProto E with version := 0, rate := 0, partner := 0, skew := 0, restart := false })
  else d
/-- A write of LINK_CFG. -/
def writeLinkCfg (m : Master) (l : Nat) (v : W64) (d : Dev) : Dev :=
  if !laneWriter m then d
  else
    let old := (linkOf d l).cfg
    let v := maskW 0xFFF0 0 v
    let refuse (d : Dev) : Dev := logOpen (updLink d l fun E => { E with cfgRefused := true })
    let changed := linkState d l ≠ 0 && setBit old 15 true ≠ setBit v 15 true
    if cfgOn v && (l % cfgLanes v ≠ 0 || overlaps d l (cfgLanes v)) then refuse d
    else if !cfgOn v && inUse d l then refuseInUse l (if changed then refuse d else d)
    else if changed then refuse d
    else takeCfg l v d

/-- LINK_CTRL.DOWN (R264, R257). -/
def downLink (l : Nat) (d : Dev) : Dev :=
  if !cfgOn (linkCfg d l) then d
  else if inUse d l then refuseInUse l d
  else resetLink l (goDown l d)

/-! ## Training (R250 to R257) -/

/-- The TRAIN block that a member lane sends (Table 12.3). -/
def trainOut (d : Dev) (l lane : Nat) : W64 :=
  let c := linkCfg d l
  let E := linkOf d l
  word [(56, 8, 0xA3), (52, 4, cfgVmax c), (48, 4, 2), fb 47 (cfgRate c ≠ 0), fb 46 (bit c 8), (44, 2, cfgWidth c),
    (41, 3, lane - l), fb 40 (decide (8 ≤ (laneOf d lane).trains)), (38, 2, cfgMode c), (32, 6, d.fuse.modid.toNat),
    (24, 8, 0xA4), (12, 12, if E.everUp then E.rxSeq else 0), fb 11 E.everUp]

/-- LINK_PARTNER as a received TRAIN block gives it. -/
def partnerOf (b : W64) : W64 :=
  word [(56, 8, fld b 31 24), (48, 6, fld b 37 32), (44, 4, fld b 55 52), (40, 4, fld b 51 48), (39, 1, fld b 47 47),
    (38, 1, fld b 46 46), (36, 2, fld b 39 38), (34, 2, fld b 45 44), (0, 1, 1)]
/-- The fields of LINK_PARTNER that a retrain must find again (R256). -/
def samePartner (a b : W64) : Bool :=
  fld a 63 56 = fld b 63 56 && fld a 53 48 = fld b 53 48 && fld a 37 34 = fld b 37 34

/-- The negotiated version (R255). -/
def version (c b : W64) : Nat := min (cfgVmax c) (fld b 55 52)
/-- The settings of a link that version 2 does not have (Table 12.6). Two ends that agree on such settings have no common version;
ends whose MODE or WIDTH differ fail by that first, as Example 12.1 has it (log entry 97). -/
def needsV3 (c : W64) : Bool := cfgRate c = 1 || cfgWidth c = 3 || cfgMode c = 1
/-- The fourth to tenth checks of Table 12.8 on a received block, with the twin check of R280 first; 0 where all pass. -/
def trainCheck (d : Dev) (l lane : Nat) (b : W64) (skew : Nat) : Nat :=
  let c := linkCfg d l
  let E := linkOf d l
  if l = 1024 && (fld b 37 32 ≠ d.fuse.modid.toNat ^^^ 1 || fld b 31 24 ≠ 0xA4) then 0x0810
  else if version c b < 2 ∨ version c b < fld b 51 48 then 0x0705
  else if fld b 39 38 ≠ cfgMode c then 0x0706
  else if fld b 45 44 ≠ cfgWidth c then 0x0707
  else if version c b = 2 ∧ needsV3 c then 0x0705
  else if fld b 43 41 ≠ lane - l then 0x0708
  else if bit b 46 ≠ bit c 8 then 0x0709
  else if 32 < skew then 0x070A
  else if E.retraining && !samePartner E.lastUp (partnerOf b) then 0x070B
  else 0

/-- The partner's frames up to `seq` are covered (R260). -/
def ackFrames (seq : Nat) (E : Link) : Link :=
  match E.replay.findIdx? (·.seq = seq) with
  | none => E
  | some i => { E with replay := E.replay.drop (i + 1), resend := E.resend - (i + 1) }

/-- Every message of the mirror under way has been acknowledged: it has arrived (R283; log entry 98). -/
def mirrorArrived (d : Dev) : Dev :=
  match d.pair.inTransfer with
  | none => d
  | some k =>
    if !d.pair.mirrorQueued || d.pair.outbox.any isMirror || (linkOf d 1024).replay.any fun F => isMirror F.words then d
    else updPair (fun P => { P with inTransfer := none, mirrorQueued := false, mirrorPrev := P.mirrorOut, mirrorOut := k.cycle }) d

/-- Every member has completed the TRAIN exchange: the link is UP (R254, R255, R257). Its block sequence begins; what the TRAIN blocks
have left in each lane's scrambler is open (log entry 97). -/
def linkUp (l : Nat) (b : W64) (d : Dev) : Dev :=
  let c := linkCfg d l
  let d := (members d l).foldl (fun d i =>
    let (w, d) := takeFreeWord d
    updLane d i fun A => { A with st := .up, scr := w.setWidth 58 }) d
  let d := updLink d l fun E =>
    let E := if bit b 11 then ackFrames (fld b 23 12) E else E
    { E with version := version c b, lastUp := partnerOf b, blockNo := 0
             rate := if E.retraining then E.rate else if cfgRate c = 0 then 1 else if cfgRate c = 1 ∨ E.atFull then 2 else 1
             training := false, retraining := false, everUp := true, resend := 0, nakPending := false, nakRow := 0, nakInRow := 0 }
  if l = 1024 then mirrorArrived { d with pair := { d.pair with twinDetached := false } } else d

/-- Every member has completed the exchange at this rate: under AUTO both ends switch to the full rate and train again, or
the link is UP (R255). -/
def exchanged (l : Nat) (b : W64) (d : Dev) : Dev :=
  let c := linkCfg d l
  let E := linkOf d l
  if cfgRate c = 2 && !E.atFull && !E.retraining && bit b 47 && version c b = 3 then
    updLink (updLanes (members d l) hunt d) l fun E => { E with atFull := true }
  else linkUp l b d

/-- A TRAIN block counts toward the exchange (R254). -/
def countTrain (l lane : Nat) (b : W64) (skew : Nat) (d : Dev) : Dev :=
  let core := setBit b 40 false
  let d := updLane d lane fun A =>
    let n := if A.trains ≠ 0 ∧ A.lastTrain = core then min 8 (A.trains + 1) else 1
    { A with trains := n, lastTrain := core, gotAck := A.gotAck || (n = 8 && bit b 40) }
  let d := updLink d l fun E => { E with partner := partnerOf b, skew := skew }
  let d := if l = 1024 then { d with pair := { d.pair with twinModid := fld b 37 32 } } else d
  if (members d l).all fun i => (laneOf d i).st = .locked && (laneOf d i).gotAck then exchanged l b d else d

/-- A control block received in TRAINING or LOCKED. -/
def recvTrain (lane : Nat) (b : W64) (skew : Nat) (d : Dev) : Dev :=
  match linkOfLane? d lane with
  | none => d
  | some l =>
    let A := laneOf d lane
    if fld b 63 56 = 0x5C && (A.st = .training || A.st = .locked) then
      updLane d lane fun A => { A with inverted := A.inverted || bit A.cfg 2, trains := 0 }
    else if A.st ≠ .locked then d
    else if fld b 63 56 ≠ 0xA3 then updLane d lane fun A => { A with trains := 0 }
    else
      let code := trainCheck d l lane b skew
      if code = 0 then countTrain l lane b skew d
      else if code = 0x0810 then
        goDown l (logEntry code none { d with pair := { d.pair with reason := code, wrongTwin := true, twinModid := fld b 37 32 } })
      else failTraining code l d

/-- A lane in FAR_END has block lock, and sends on what it receives (R262). -/
def farLocked (lane : Nat) (ppm : Int) (d : Dev) : Dev :=
  if (laneOf d lane).st = .loopback && (laneOf d lane).loop = 4 then
    updLane d lane fun A => { A with farLock := true, ppm := ppm, signal := true }
  else d
/-- Block lock (R251, R248); a lane in FAR_END gains it on its partner's pattern (R262). -/
def gotLock (lane : Nat) (ppm : Int) (d : Dev) : Dev :=
  match linkOfLane? d lane with
  | none => farLocked lane ppm d
  | some l =>
    if (laneOf d lane).st ≠ .training then farLocked lane ppm d
    else
      let d := updLane d lane fun A => { A with ppm := ppm, signal := true }
      if ppm < -200 ∨ 200 < ppm then failTraining 0x0704 l d
      else updLane d lane fun A => { A with st := .locked, trains := 0, gotAck := false, bad := 0 }

/-- An invalid header of a frame, received while its lane is locked, counts (R251). -/
def badHeader (lane : Nat) (d : Dev) : Dev := updLane d lane fun A => { A with syncErr := A.syncErr + 1, bad := min 16 (A.bad + 1) }
/-- The invalid headers of a lock loss that no frame has counted: 16 of 64, less an open number of those that frames brought. -/
def newBad (A : Lane) (d : Dev) : W64 × Dev :=
  if A.bad = 0 then (16, d)
  else
    let (w, d) := takeFreeWord d
    (16 - w64 (w.toNat % (A.bad + 1)), d)
/-- Lock loss (R251): 16 invalid headers of 64. -/
def lostLock (lane : Nat) (d : Dev) : Dev :=
  let A := laneOf d lane
  if A.st ≠ .locked ∧ A.st ≠ .up ∧ A.st ≠ .scan then d
  else
    let (n, d) := newBad A d
    let d' := updLane d lane fun A => { A with lockLoss := A.lockLoss + 1, syncErr := A.syncErr + n, bad := 0 }
    match linkOfLane? d lane with
    | none => updLane d' lane hunt
    | some l =>
      if linkState d l = 3 then retrain 0x0710 l d'
      else retrainLanes l (updLink (updLane d' lane hunt) l fun E => { E with reason := 0x0710 })

/-- A member detects no signal within 1 ms of TRAIN. -/
def noSignal (lane : Nat) (d : Dev) : Dev :=
  match linkOfLane? d lane with
  | none => d
  | some l =>
    if (laneOf d lane).st = .training && !(laneOf d lane).signal && !(linkOf d l).retraining then failTraining 0x0703 l d else d
/-- Not UP within 10 ms of TRAIN (R256). -/
def trainTimeout (lane : Nat) (d : Dev) : Dev :=
  match linkOfLane? d lane with
  | none => d
  | some l => if (linkOf d l).training && !(linkOf d l).retraining then failTraining 0x070C l d else d
/-- A retrain not UP within 25 µs (R256). -/
def retrainLate (lane : Nat) (d : Dev) : Dev :=
  match linkOfLane? d lane with
  | none => d
  | some l =>
    if (linkOf d l).retraining then
      retrainLanes l (updLink d l fun E => { E with retrainFails := E.retrainFails + 1, retrains := E.retrains + 1 })
    else d
/-- The equaliser of a lane is adapted (R256). -/
def equalised (lane : Nat) (d : Dev) : Dev :=
  if (laneOf d lane).st = .training && bit (laneOf d lane).cfg 3 && !(laneOf d lane).adapted then
    updLane d lane fun A => { A with adapted := true, signal := true } else d

/-! ## CRC-16 (R259) -/

def crcStep (c : BitVec 16) (b : Bool) : BitVec 16 :=
  if c.msb ^^ b then (c <<< 1) ^^^ 0x1021 else c <<< 1
/-- The `n` low bits of `v`, most significant first. -/
def crcBits : Nat → Nat → BitVec 16 → BitVec 16
  | 0, _, c => c
  | n + 1, v, c => crcBits n v (crcStep c (v.testBit n))
/-- The CRC of a control block's bits [63:16] and its data blocks. -/
def crcBlocks (h : W64) (ws : List W64) : BitVec 16 :=
  ws.foldl (fun c w => crcBits 64 w.toNat c) (crcBits 48 (h.toNat >>> 16) 0xFFFF)
def crcGood (h : W64) (ws : List W64) : Bool := fld h 15 0 = (crcBlocks h ws).toNat

/-! ## Frames (R258 to R261) -/

/-- Units of credit: four words in version 2 (Table 12.6). -/
def creditUnit (E : Link) : Nat := if E.version = 2 then 4 else 1
/-- A control block with its CRC: BTYPE, SEQ, bits [20:16]. -/
def control (E : Link) (btype seq low : Nat) (ws : List W64) : W64 :=
  let h := word [(56, 8, btype), (44, 12, seq), (32, 12, E.rxSeq), (21, 11, E.freed / creditUnit E), (16, 5, low)]
  h ||| w64 (crcBlocks h ws).toNat
def frameBlock (E : Link) (F : TxFrame) : W64 := control E 0xA1 F.seq (F.words.length - 1) F.words
def idleBlock (E : Link) (nak : Bool) : W64 := control E 0xA2 0 (16 * b2n nak) []
def putWire (h : W64) (ws : List W64) (E : Link) : Link := { E with wire := E.wire ++ [(h, ws)] }

/-! ## Coding (R249) -/

/-- One bit through the self-synchronising scrambler x^58 + x^39 + 1; the state holds the last 58 bits sent, the newest lowest. -/
def scrBit (s : BitVec 58) (b : Bool) : Bool × BitVec 58 :=
  let o := b ^^ s.getLsbD 38 ^^ s.getLsbD 57
  (o, (s <<< 1) ||| (BitVec.ofBool o).setWidth 58)
/-- The `n` low bits of `v`, most significant first, scrambled onto `acc`. -/
def scramble : Nat → Nat → Nat → BitVec 58 → Nat × BitVec 58
  | 0, _, acc, s => (acc, s)
  | n + 1, v, acc, s =>
    let (o, s) := scrBit s (v.testBit n)
    scramble n v (2 * acc + b2n o) s
/-- A lane sends a block: its sync header and its scrambled payload; under a test-control instruction its lands carry their cells instead
(R378). -/
def sendBlock (test : Bool) (sync : BitVec 2) (w : W64) (A : Lane) : Lane :=
  let (o, s) := scramble 64 w.toNat 0 A.scr
  { A with scr := s, line := if test then A.line else A.line ++ [(sync, w64 o)] }
/-- The next block of a link's sequence: block i goes to member i mod W. -/
def putBlock (l : Nat) (sync : BitVec 2) (w : W64) (d : Dev) : Dev :=
  let n := (linkOf d l).blockNo
  updLane (updLink d l fun E => { E with blockNo := n + 1 }) (l + n % cfgLanes (linkCfg d l)) (sendBlock (jtagTest d) sync w)
/-- A control block with its data blocks is sent. -/
def putBlocks (l : Nat) (h : W64) (ws : List W64) (d : Dev) : Dev :=
  ws.foldl (fun d w => putBlock l 0b01 w d) (putBlock l 0b10 h (updLink d l (putWire h ws)))
/-- An IDLE is sent. -/
def putIdle (l : Nat) (nak : Bool) (d : Dev) : Dev := putBlocks l (idleBlock (linkOf d l) nak) [] d

/-- ACK and CREDIT of an accepted control block. -/
def takeAck (h : W64) (E : Link) : Link :=
  let E := ackFrames (fld h 43 32) E
  let c := fld h 31 21
  { E with credit := E.credit + (c + 2048 - E.creditSeen) % 2048 * creditUnit E, creditSeen := c }

/-- The SEQ expected next. -/
def expected (E : Link) : Nat := (E.rxSeq + 1) % 4096
/-- An end sends a NAK; the eighth in a row for one SEQ makes the link retrain. -/
def sendNak (l : Nat) (d : Dev) : Dev :=
  let E := linkOf d l
  let n := if E.nakRow ≠ 0 ∧ E.nakSeq = expected E then E.nakRow + 1 else 1
  let d := putIdle l true (updLink d l fun E => { E with nakPending := true, nakSeq := expected E, nakRow := n })
  if n = 8 then retrain 0x0711 l (updLink d l fun E => { E with nakRow := 0 }) else d
/-- A frame is refused (R259). -/
def refuseFrame (l : Nat) (d : Dev) : Dev :=
  sendNak l (updLink d l fun E => { E with crcErrors := E.crcErrors + 1 })

/-- Whether a pair message is of a kind of Table 13.3. -/
def pairKind (w : W64) : Bool := decide (1 ≤ fld w 63 56) && decide (fld w 63 56 ≤ 7)
/-- ACK and CREDIT of a link; an acknowledgment may complete a mirror (R283). -/
def acked (l : Nat) (h : W64) (d : Dev) : Dev :=
  let d := updLink d l (takeAck h)
  if l = 1024 then mirrorArrived d else d
/-- A frame is accepted: its words pass to the link's receive buffer; pair messages to the pair's hub block. -/
def acceptFrame (l : Nat) (h : W64) (ws : List W64) (d : Dev) : Dev :=
  let d := updLink (acked l h d) l fun E => { E with rxSeq := fld h 55 44, nakPending := false, nakRow := 0 }
  if l = 1024 then
    let d := updLink d l fun E => { E with freed := E.freed + ws.length }
    if ws.head?.any pairKind then d else { d with pair := { d.pair with absorbed := d.pair.absorbed + 1 } }
  else if cfgMode (linkCfg d l) = 0 then
    let d := updLink d l fun E =>
      { E with rx := E.rx ++ ws, tokensRx := E.tokensRx + w64 (ws.filter (wKind · = 1)).length
               marksRx := E.marksRx + w64 (ws.filter (wKind · = 3)).length }
    updLink d l fun E => { E with earlyPeak := max E.earlyPeak (earlyWords d E) }
  else updLink d l fun E => { E with rx := E.rx ++ ws }

/-- The most words of a frame on a link. -/
def frameMax (d : Dev) (l : Nat) : Nat := if l ≠ 1024 ∧ cfgMode (linkCfg d l) = 0 then 4 else 32
/-- A frame received in UP (R259); with an invalid header, it is that of a block on the lane named. -/
def recvFrame (lane : Nat) (h : W64) (ws : List W64) (valid : Bool) (d : Dev) : Dev :=
  match linkOfLane? d lane with
  | none => d
  | some l =>
    let E := linkOf d l
    if linkState d l ≠ 3 then d
    else if !valid then refuseFrame l (badHeader lane d)
    else if !( fld h 63 56 = 0xA1 && ws.length = fld h 20 16 + 1 && decide (ws.length ≤ frameMax d l) && crcGood h ws) then
      refuseFrame l d
    else
      let ahead := (fld h 55 44 + 4096 - expected E) % 4096
      if ahead = 0 then acceptFrame l h ws d
      else if 2048 ≤ ahead ∨ E.nakPending then d
      else refuseFrame l d

/-- A NAK makes the sender resend every frame after its ACK; the eighth for one SEQ makes the link retrain. -/
def takeNak (l ack : Nat) (d : Dev) : Dev :=
  let E := linkOf d l
  let n := if E.nakInRow ≠ 0 ∧ E.nakInSeq = ack then E.nakInRow + 1 else 1
  let d := updLink d l fun E => { E with replays := E.replays + 1, resend := 0, nakInSeq := ack, nakInRow := n }
  if n = 8 then retrain 0x0711 l (updLink d l fun E => { E with nakInRow := 0 }) else d
/-- An IDLE received in UP; another control block counts as a frame with a failed CRC (R250). -/
def recvIdle (lane : Nat) (h : W64) (d : Dev) : Dev :=
  match linkOfLane? d lane with
  | none => d
  | some l =>
    if linkState d l ≠ 3 then d
    else if fld h 63 56 ≠ 0xA2 then refuseFrame l d
    else if !crcGood h [] then updLink d l fun E => { E with crcErrors := E.crcErrors + 1 }
    else
      let d := acked l h d
      if bit h 20 then takeNak l (fld h 43 32) d else d

/-- The expected SEQ has not arrived 1 µs after a NAK. -/
def nakAgain (lane : Nat) (d : Dev) : Dev :=
  match linkOfLane? d lane with
  | none => d
  | some l => if linkState d l = 3 && (linkOf d l).nakPending then sendNak l d else d

/-- The words of the next new frame: what waits at the egress, or the oldest pair message. -/
def nextWords (d : Dev) (l : Nat) : List W64 :=
  if l = 1024 then d.pair.outbox.headD [] else (linkOf d l).egress.take (min (frameMax d l) (linkOf d l).credit)
/-- Frames that the replay buffer holds at most (R260). -/
def replayMax (d : Dev) (l : Nat) : Nat := 64 * cfgLanes (linkCfg d l)
/-- A new frame leaves the egress. -/
def newFrame (l : Nat) (ws : List W64) (d : Dev) : Dev :=
  let E := linkOf d l
  let F : TxFrame := ⟨E.txSeq, ws⟩
  let d := updLink (putBlocks l (frameBlock E F) ws d) l fun E =>
    { E with txSeq := (E.txSeq + 1) % 4096, replay := E.replay ++ [F], resend := E.replay.length + 1
             credit := E.credit - ws.length, egress := if l = 1024 then E.egress else E.egress.drop ws.length }
  if l = 1024 then { d with pair := { d.pair with outbox := d.pair.outbox.drop 1 } }
  else if cfgMode (linkCfg d l) = 0 then
    updLink d l fun E => { E with tokensTx := E.tokensTx + w64 (ws.filter (wKind · = 1)).length
                                  marksTx := E.marksTx + w64 (ws.filter (wKind · = 3)).length }
  else d
/-- The sender sends a frame: one to resend first, else a new one within credit and replay space (R258 to R260). -/
def sendFrame (lane : Nat) (d : Dev) : Dev :=
  match linkOfLane? d lane with
  | none => d
  | some l =>
    let E := linkOf d l
    if linkState d l ≠ 3 then d
    else match E.replay[E.resend]? with
      | some F => updLink (putBlocks l (frameBlock E F) F.words d) l fun E => { E with resend := E.resend + 1 }
      | none =>
        let ws := nextWords d l
        if ws = [] ∨ E.credit < ws.length ∨ replayMax d l ≤ E.replay.length then d else newFrame l ws d
/-- An IDLE, with ACK and CREDIT. -/
def sendIdle (lane : Nat) (d : Dev) : Dev :=
  match linkOfLane? d lane with
  | none => d
  | some l => if linkState d l = 3 then putIdle l false d else d

/-! ## Loopbacks, patterns, eye scan (R262 to R265) -/

/-- What a lane transmits (R252, R262). -/
inductive TxSource
  | idle | train | blocks | pattern | echo
  deriving DecidableEq, Repr
/-- The lane is in a loopback, or in a scan point entered from one. -/
def looping (A : Lane) : Bool := A.st = .loopback || (A.st = .scan && A.scanFromLoop)
def laneSource (A : Lane) : TxSource :=
  if looping A then
    match A.loop with
    | 1 => if bit A.pat 3 then .pattern else .idle
    | 4 => if A.farLock then .echo else .idle
    | _ => .idle
  else match A.st with
    | .training | .locked => .train
    | .up | .scan => .blocks
    | _ => .idle
/-- LANE_CTRL.LOOP. -/
def writeLoop (m : Master) (lane : Nat) (v : W64) (d : Dev) : Dev :=
  let n := fld v 2 0
  if !laneWriter m then d
  else if n = 0 then updLane d lane fun A => { A with loop := 0, farLock := false, clean := 0, st := if A.st = .loopback then .down else A.st }
  else if (laneOf d lane).st = .down then updLane d lane fun A => { A with loop := n, farLock := false, clean := 0, st := .loopback }
  else
    let d' := logOpen (updLane d lane fun A => { A with loopRefused := true })
    match linkOfLane? d lane with
    | some l => if inUse d l then refuseInUse l d' else d'
    | none => d'
/-- PAT_CTRL: counters and checker lock clear; the generator starts from ones (log entry 33). -/
def writePat (m : Master) (lane : Nat) (v : W64) (d : Dev) : Dev :=
  if laneWriter m then updLane d lane fun A =>
    { A with pat := maskW 0xB 0 v, patBits := 0, patErrors := 0, chkLocked := false, gen := BitVec.allOnes 31, clean := 0 }
  else d
/-- Generator and checker meet inside the lane: the two near-end loops (Table 12.7). -/
def nearEnd (A : Lane) : Bool := looping A && (A.loop = 2 || A.loop = 3)
/-- The checker can lock: after 64 error-free bits, which in a near-end loop the model has compared (R263). -/
def canLock (A : Lane) : Bool := looping A && (A.loop ≠ 4 || A.farLock) && bit A.pat 3 && (!nearEnd A || decide (64 ≤ A.clean))
/-- The checker locks; from then on it counts. -/
def lockChecker (lane : Nat) (d : Dev) : Dev :=
  if canLock (laneOf d lane) then updLane d lane fun A => { A with chkLocked := true } else d
/-- The exponents of a pattern's polynomial. -/
def prbsTaps (p : Nat) : Nat × Nat :=
  match p with
  | 0 => (7, 6)
  | 1 => (15, 14)
  | 2 => (23, 18)
  | _ => (31, 28)
/-- The bit that follows 31 bits of a pattern, the newest lowest. -/
def prbsBit (p : Nat) (s : BitVec 31) : Bool := s.getLsbD ((prbsTaps p).1 - 1) ^^ s.getLsbD ((prbsTaps p).2 - 1)
def pushBit (s : BitVec 31) (b : Bool) : BitVec 31 := (s <<< 1) ||| (BitVec.ofBool b).setWidth 31
/-- `n` bits pass from a generator to a checker: both states, the bits that differ from what the checker expects, and how many since the
last of them did not. -/
def runPattern (p : Nat) : Nat → BitVec 31 → BitVec 31 → Nat → Nat → BitVec 31 × BitVec 31 × Nat × Nat
  | 0, g, c, e, k => (g, c, e, k)
  | n + 1, g, c, e, k =>
    let b := prbsBit p g
    let bad := b ≠ prbsBit p c
    runPattern p n (pushBit g b) (pushBit c b) (e + b2n bad) (if bad then 0 else k + 1)
/-- The bits that pass a lane in one TSC cycle, at 34.375 or 25.78125 Gb/s (Table 12.1); a lane without a link counts as one at the
full rate (log entry 33). -/
def lineBits (d : Dev) (lane : Nat) : Nat :=
  let per := if (linkOfLane? d lane).any fun l => cfgRate (linkCfg d l) = 0 then 2578125 else 3437500
  (d.clk.tsc + 1) * per / 10000 - d.clk.tsc * per / 10000
/-- One TSC cycle of a lane's generator and checker: in a near-end loop the checker sees the generator's bits; what comes over the
channel, and its errors, are open. -/
def patTick (lane : Nat) (d : Dev) : Dev :=
  let A := laneOf d lane
  if !(looping A && bit A.pat 3) then d
  else
    let n := lineBits d lane
    let count (e : Nat) (A : Lane) : Lane :=
      if A.chkLocked then { A with patBits := A.patBits + w64 n, patErrors := A.patErrors + w64 e } else A
    let (g, c, e, k) := runPattern (fld A.pat 1 0) n A.gen A.chk 0 A.clean
    if nearEnd A then updLane d lane fun A => count e { A with gen := g, chk := c, clean := min k 64 }
    else
      let (w, d) := if A.chkLocked then takeFreeWord d else (0, d)
      updLane d lane fun A => count (w.toNat % (n + 1)) { A with gen := g }
/-- SCAN_CTRL. -/
def writeScan (m : Master) (lane : Nat) (v : W64) (d : Dev) : Dev :=
  let A := laneOf d lane
  if !laneWriter m then d
  else
    let d := updLane d lane fun A => { A with scan := maskW 0x3F_7F3F 0 v }
    if !bit v 31 ∨ A.st = .scan then d
    else if A.st = .up ∨ A.st = .loopback then updLane d lane fun A =>
      { A with scanStart := true, scanDone := false, scanInvalid := false, scanErrors := 0, st := .scan
               scanFromLoop := decide (A.st = .loopback) }
    else logOpen (updLane d lane fun A => { A with scanRefused := true })
/-- The bits that a scan point compares: 2^DWELL, from 16 to 36 (R265). -/
def scanBits (A : Lane) : Nat := 2 ^ min 36 (max 16 (fld A.scan 21 16))
/-- A scan point completes; no more bits can differ than it compared. -/
def scanDone (lane errors : Nat) (d : Dev) : Dev :=
  if (laneOf d lane).st = .scan then updLane d lane fun A =>
    { A with scanStart := false, scanDone := true, scanErrors := min errors (scanBits A)
             st := if A.scanFromLoop then .loopback else .up }
  else d

/-! ## Mailbox commands -/

/-- A link named by a command: the lowest lane of an enabled link. -/
def namedLink (d : Dev) (w : W64) : Option Nat :=
  if w.toNat < 1024 ∧ cfgOn (linkOf d w.toNat).cfg then some w.toNat else none
/-- LINK_TRAIN: REASON as LINK_STATUS when refused (Table 14.6); a link that is not DOWN takes no TRAIN. -/
def linkTrainCmd (c : Cmd) (d : Dev) : Nat × List W64 × Dev :=
  match namedLink d (c.par 1) with
  | none => (3, [], d)
  | some l =>
    if linkState d l ≠ 0 then (4, [], d)
    else (if lanesEntering d l then 0 else trainCode d l, [], trainLink l d)
def linkDownCmd (c : Cmd) (d : Dev) : Nat × List W64 × Dev :=
  match namedLink d (c.par 1) with
  | none => (3, [], d)
  | some l => (if inUse d l then 0x0712 else 0, [], downLink l d)

/-! ## Commands -/

def execLinkCfgWrite (m : Master) (lane : Fin 1024) (v : W64) (s : State) : Host.Outcome State Fault Refusal :=
  lift (withLinks (byWrite m (aLane lane 0x400) v (writeLinkCfg m lane v))) s
def execLinkCtrlTrain (m : Master) (lane : Fin 1024) (s : State) : Host.Outcome State Fault Refusal :=
  lift (withLinks (byWrite m (aLane lane 0x408) 1 fun d => if laneWriter m then trainLink lane d else d)) s
def execLinkTrain (seat : Seat) (s : State) : Host.Outcome State Fault Refusal :=
  lift (withLinks (execNow seat 0x0701 linkTrainCmd)) s
def execLinkCtrlDown (m : Master) (lane : Fin 1024) (s : State) : Host.Outcome State Fault Refusal :=
  lift (withLinks (byWrite m (aLane lane 0x408) 2 fun d => if laneWriter m then downLink lane d else d)) s
def execLinkDown (seat : Seat) (s : State) : Host.Outcome State Fault Refusal :=
  lift (withLinks (execNow seat 0x0702 linkDownCmd)) s
def execEqualiserAdapted (lane : Fin 1032) (s : State) : Host.Outcome State Fault Refusal := lift (onLane lane (equalised lane)) s
def execBlockLock (lane : Fin 1032) (ppm : Int) (s : State) : Host.Outcome State Fault Refusal :=
  lift (withLinks (onLane lane (gotLock lane ppm))) s
def execLockLoss (lane : Fin 1032) (s : State) : Host.Outcome State Fault Refusal := lift (withLinks (onLane lane (lostLock lane))) s
/-- A control block that TRAIN_BLOCK brings: in UP it is as any other there (R250), else part of the training. -/
def recvControl (lane : Nat) (b : W64) (skew : Nat) (d : Dev) : Dev :=
  if (linkOfLane? d lane).any fun l => linkState d l = 3 then recvIdle lane b d else recvTrain lane b skew d
def execTrainBlock (lane : Fin 1032) (block : W64) (skew : Nat) (s : State) : Host.Outcome State Fault Refusal :=
  lift (withLinks (onLane lane (recvControl lane block skew))) s
def execLinkNoSignal (lane : Fin 1032) (s : State) : Host.Outcome State Fault Refusal := lift (withLinks (onLane lane (noSignal lane))) s
def execLinkTrainTimeout (lane : Fin 1032) (s : State) : Host.Outcome State Fault Refusal :=
  lift (withLinks (onLane lane (trainTimeout lane))) s
def execRetrainTimeout (lane : Fin 1032) (s : State) : Host.Outcome State Fault Refusal :=
  lift (withLinks (onLane lane (retrainLate lane))) s
def execFrame (lane : Fin 1032) (header : W64) (words : List W64) (headersValid : Bool) (s : State) :
    Host.Outcome State Fault Refusal := lift (withLinks (onLane lane (recvFrame lane header words headersValid))) s
def execIdle (lane : Fin 1032) (block : W64) (s : State) : Host.Outcome State Fault Refusal :=
  lift (withLinks (onLane lane (recvIdle lane block))) s
def execNakResend (lane : Fin 1032) (s : State) : Host.Outcome State Fault Refusal := lift (withLinks (onLane lane (nakAgain lane))) s
def execFrameSend (lane : Fin 1032) (s : State) : Host.Outcome State Fault Refusal := lift (onLane lane (sendFrame lane)) s
def execIdleSend (lane : Fin 1032) (s : State) : Host.Outcome State Fault Refusal := lift (onLane lane (sendIdle lane)) s
def execLoopWrite (m : Master) (lane : Fin 1032) (v : W64) (s : State) : Host.Outcome State Fault Refusal :=
  lift (withLinks (byWrite m (aLane lane 0x8) v (writeLoop m lane v))) s
def execPatCtrlWrite (m : Master) (lane : Fin 1032) (v : W64) (s : State) : Host.Outcome State Fault Refusal :=
  lift (byWrite m (aLane lane 0x40) v (writePat m lane v)) s
def execCheckerLock (lane : Fin 1032) (s : State) : Host.Outcome State Fault Refusal := lift (onLane lane (lockChecker lane)) s
def execScanStart (m : Master) (lane : Fin 1032) (v : W64) (s : State) : Host.Outcome State Fault Refusal :=
  lift (withLinks (byWrite m (aLane lane 0x60) v (writeScan m lane v))) s
def execScanPointDone (lane : Fin 1032) (errors : Nat) (s : State) : Host.Outcome State Fault Refusal :=
  lift (withLinks (onLane lane (scanDone lane errors))) s
def execLanesDownReached (lane : Fin 1032) (s : State) : Host.Outcome State Fault Refusal :=
  lift (withLinks (onLane lane (lanesReached lane))) s

end Sys2Proof.Machine
end

