-- ==== Sys2Proof/Machine/RunControl.lean ====
section
/-! DEFINITION. Run control (chapter 8): the consistency check, starting and ending a run, holds, the watchdog, pace; staged
release (chapter 7) and the trail's pin (chapter 9). -/

namespace Sys2Proof.Machine

/-! ## The consistency check (Table 8.2) -/

/-- Whether a range of HBM lies within one enabled DESIGN entry. -/
def inDesign (d : Dev) (base size : Nat) : Bool :=
  (hbmKind d 0).any fun (_, _, b, n) => decide (b ≤ base) && decide (base + size ≤ b + n)
/-- Every configured context of the loaded tiles: (virtual tile × 512 + context, configuration), ascending. -/
def allCtxs (d : Dev) : List (Nat × CtxCfg) :=
  sortBy (·.1) ((loadedTiles d).flatMap fun (_, T) => (ctxsOf T).map fun (q, g) => (T.vtile * 512 + q, g))
/-- The lowest pair of overlapping enabled entries. -/
def overlapping (d : Dev) : Option (Nat × Nat) :=
  (hbmEntries d).findSome? fun (i, _, b, n) =>
    ((hbmEntries d).find? fun (j, _, c, m) => decide (i < j) && decide (b < c + m) && decide (c < b + n)).map fun x => (i, x.1)
/-- The lowest kind, DESIGN apart, in two enabled entries. -/
def repeatedKind (d : Dev) : Option Nat := (List.range 8).find? fun k => k ≠ 0 && decide (2 ≤ (hbmKind d k).length)
/-- A TRAIL entry that breaks R191. -/
def badTrailEntry (d : Dev) : Option Nat :=
  ((hbmKind d 1).find? fun (_, _, b, n) =>
    b % 0x80_0000 ≠ 0 || n % 0x80_0000 ≠ 0 || decide (n < 2 ^ 30) || decide (96 * 2 ^ 30 < n)).map (·.1)
/-- The lowest mapped bank whose owner is not FABRIC: physical tile × 16 + bank. -/
def bankNotFabric (d : Dev) : Option Nat :=
  (loadedTiles d).findSome? fun (p, T) =>
    ((mappedBanks T).find? fun b => (bankOf T b).owner ≠ .fabric).map (p * 16 + ·)
/-- The module as the rejoins that open the run leave its placement: the tiles of a moved region in place of those that it leaves (R128). -/
def nextPlaced (d : Dev) : Dev :=
  let new := (d.tiles.filter fun (_, T) => T.placed && T.moving).map (·.2.vtile)
  { d with tiles := (d.tiles.filter fun (_, T) => T.moving || !(T.placed && new.contains T.vtile)).map fun (p, T) => (p, { T with moving := false }) }
/-- The lowest LANE of an egress entry that is not the lowest lane of an enabled link. -/
def egressNoLink (d : Dev) : Option Nat :=
  ((placedTiles (nextPlaced d)).foldl (fun l (_, T) => (egressOf T).foldl (fun l (lane, _, _) => insertNat lane l) l) []).find? fun lane =>
    !cfgOn (linkOf d lane).cfg
/-- The lowest used link that is not UP in EXCHANGE mode. -/
def linkNotUp (d : Dev) : Option Nat :=
  (usedLinks (nextPlaced d)).find? fun l => linkState d l ≠ 3 || cfgMode (linkCfg d l) = 1
def basketCtx (d : Dev) : Option Nat := ((allCtxs d).find? fun (_, g) => g.kind = 2 || g.kind = 3).map (·.1)

/-- The items of Table 8.2 in order: whether the item refuses, its code and DETAIL. -/
def checkItems (d : Dev) : List (Bool × Nat × Nat) :=
  let opt (code : Nat) (o : Option Nat) : Bool × Nat × Nat := (o.isSome, code, o.getD 0)
  [(decide (d.run.st = .stranded), 0x0801, d.sys.strandLane),
   (decide (d.clk.stage < 5) || d.clk.failed, if d.clk.stage < 5 then 0x0901 + d.clk.stage else 0x0910, 0),
   (d.run.haltLow, 0x0309, 0),
   (d.run.midCycle, 0x0301, d.run.committed % 2 ^ 32),
   (d.exch.lateBit || d.exch.contBit || d.mem.bounds, 0x0308, b2n d.exch.lateBit + 2 * b2n d.exch.contBit + 4 * b2n d.mem.bounds),
   opt 0x0302 (regionsIn d .torn).head?,
   opt 0x0303 ((overlapping d).map fun (i, j) => i + 256 * j),
   opt 0x0304 (repeatedKind d),
   opt 0x0305 (((allCtxs d).find? fun (_, g) => g.kind = 1 && !inDesign d g.base (g.words * g.wsize)).map (·.1)),
   opt 0x0306 (bankNotFabric d),
   opt 0x0307 (egressNoLink d),
   opt 0x0701 (linkNotUp d),
   if (badTrailEntry d).isSome then opt 0x0401 (badTrailEntry d)
     else opt 0x0402 ((List.range 32).find? fun r => d.trail.repairPending && (regionOf d r).repair),
   if (hbmKind d 3).isEmpty then opt 0x0601 (basketCtx d) else (false, 0, 0),
   (d.cap.armed && (hbmKind d 2).isEmpty, 0x0501, 0),
   (d.run.mode && decide (d.run.count = 0), 0x030A, 0),
   (d.run.stopAtEn && decide (d.run.stopAt ≤ d.run.committed), 0x030B, d.run.stopAt % 2 ^ 32)]

/-- The first item that refuses: (item, code, DETAIL). -/
def firstRefusal (l : List (Bool × Nat × Nat)) : Option (Nat × Nat × Nat) :=
  (l.zipIdx.find? (·.1.1)).map fun (x, i) => (i + 1, x.2.1, x.2.2)

/-- RUN_CHECK. -/
def setCheck (code item detail : Nat) (d : Dev) : Dev :=
  { d with run := { d.run with checkReason := code, checkItem := item, checkDetail := detail } }
/-- A refused check (R170). -/
def refuseRun (code item detail : Nat) (d : Dev) : Dev :=
  logEntry code none (pulse 0x013 (setCheck code item detail d))

/-! ## Starting a run -/

/-- The first design cycle of a run begins: the pins are sampled, pace counts from here (R172, R188). -/
def firstCycle (env : PinEnv) (full : Bool) (d : Dev) : Dev :=
  let d := sampleFor env (curCycle d) d
  let r := d.run
  beginCycle { d with
    run := { r with fullPass := full || r.fullNext, fullNext := false, baseWait := false, paceTargetUse := r.paceTarget
                    paceCapUse := r.paceCap, capTicks := 0, capCycle := curCycle d }
    bkt := { d.bkt with delivOpen := true } }

/-- What a run samples when it starts (R173, R190), and the drivers that a clock failure left off (R353). -/
def openRun (d : Dev) : Dev :=
  let r := d.run
  { d with run := { r with progress := 0, modeRun := r.mode, countRun := r.count, reqs := 0, paceCapWait := 0, draining := false
                           forcedBy := 0 }
           tio := if d.clk.tioReenable then { d.tio with highZ := false } else d.tio
           clk := { d.clk with tioReenable := false } }

/-- The check has passed: a release after a full load, else a run from the committed cycle (R156, R172). Thermos begins to raise
the rails at once (R362). -/
def startRun (env : PinEnv) (d : Dev) : Dev :=
  let base := baseDue d
  let d := openRun d
  if d.run.st = .loaded then
    let d := rejoinAll d.run.committed d
    stepRails (enterState .releasing { d with ld := { d.ld with stage := 0 }, run := { d.run with baseWait := base } })
  else
    let d := rejoinAll d.run.committed (stepRails (enterState .running d))
    if base then { d with run := { d.run with baseWait := true } } else firstCycle env false d

/-- The consistency check (R170). -/
def checkRun (env : PinEnv) (d : Dev) : Dev :=
  match firstRefusal (checkItems d) with
  | some (item, code, detail) => refuseRun code item detail d
  | none => startRun env (setCheck 0 0 0 d)

/-- Setting RUN_ENABLE (R170, R179). -/
def enableRun (env : PinEnv) (d : Dev) : Dev :=
  match d.run.st with
  | .loaded | .stopped | .stranded => checkRun env d
  | .stopping => { d with run := { d.run with restart := true } }
  | _ => refuseRun 0x0004 0 0 d

/-- BASE_CHECKPOINT: the base checkpoint of c is complete (R192). -/
def baseDone (env : PinEnv) (d : Dev) : Dev :=
  if !d.run.baseWait then d
  else
    let d := baseCkpt d
    if d.run.st = .releasing then { d with run := { d.run with baseWait := false } } else firstCycle env false d

/-- RELEASE_STAGE: the next stage of Table 7.4. -/
def releaseStage (env : PinEnv) (d : Dev) : Dev :=
  if d.run.st ≠ .releasing ∨ d.run.baseWait then d
  else match d.ld.stage with
    | 0 => pinsOn { d with ld := { d.ld with stage := 1 } }
    | 1 => { d with ld := { d.ld with stage := 2 }, bkt := { d.bkt with delivOpen := true } }
    | _ =>
      let d := enterState .running { d with ld := { d.ld with stage := 3 } }
      let d := firstCycle env true d
      if d.run.reqs = 0 then d else enterState .stopping d

/-! ## Ending a run -/

/-- A STOP (R174, R179): it cancels a held restart. -/
def stopRun (d : Dev) : Dev :=
  let d := if d.run.restart then { d with run := { d.run with restart := false, cancelled := true } } else d
  match d.run.st with
  | .releasing | .running | .stopping => registerStop cHOST_STOP { d with run := { d.run with stopBit := true } }
  | _ => d

/-- The last design cycle begun: the committed one before step 0 of the next, in a release, a hold or the wait for the base
checkpoint (R156, R178, R192). -/
def begunCycle (d : Dev) : Nat :=
  if d.run.st = .releasing ∨ held d ∨ d.run.baseWait then d.run.committed else curCycle d
/-- STOP_AT names a design cycle already begun or committed: the run stops at the next barrier (R173). -/
def lateCheck (d : Dev) : Dev :=
  let run := d.run.st = .releasing ∨ d.run.st = .running ∨ (d.run.st = .stopping ∧ ¬ d.run.draining)
  let begun := begunCycle d
  if run ∧ d.run.stopAtEn ∧ d.run.stopAt ≤ begun then
    registerStop cSTOP_AT { d with run := { d.run with lateStop := true } }
  else d
def writeStopAt (v : W64) (d : Dev) : Dev := lateCheck { d with run := { d.run with stopAt := v.toNat } }
/-- The RW fields of RUN_CTRL; STOP_AT_EN becoming 1 is judged as a STOP_AT write is (log entry 36). -/
def writeRunMode (mode en : Bool) (d : Dev) : Dev :=
  let d' := { d with run := { d.run with mode := mode, stopAtEn := en } }
  if en && !d.run.stopAtEn then lateCheck d' else d'

/-- HALT_N is low for `ns`, or high again (R177, R372): low for 20 ns or more is registered, below 5 ns never. -/
def haltPin (low : Bool) (ns : Nat) (d : Dev) : Dev :=
  if !low then { d with run := { d.run with haltLow := false } }
  else
    let (open_, d) := if 5 ≤ ns ∧ ns < 20 then takeFreeBit d else (decide (20 ≤ ns), d)
    if !open_ then d
    else
      let d := if d.run.restart then { d with run := { d.run with restart := false, cancelled := true } } else d
      registerStop cHALT_N { d with run := { d.run with haltLow := true } }

/-- STOPPED is entered: the held FORCE_STOP completes, a held restart is checked (R175, R179). -/
def stopDone (env : PinEnv) (d : Dev) : Dev :=
  if d.run.st = .stopping && d.run.draining && drained d then
    let d := { d with run := { d.run with draining := false, stopBit := false } }
    let d := settle .stopped d
    let d := finishHeld 0x0303 0 [w64 d.run.committed] d
    if d.run.restart then checkRun env { d with run := { d.run with restart := false } } else d
  else d

/-! ## The watchdog (R182 to R184) -/

/-- Table 8.9: the entry of a waiting cluster. -/
def reportEntry (d : Dev) (p c : Nat) : W64 × W64 :=
  let T := tileOf d p
  let (step, cause, b, det) := clusterStatus d p c
  let w := inEntry T c det
  (word [fb 63 true, (54, 9, T.vtile), (50, 4, c), (46, 4, cause), (40, 6, b), (30, 10, step)],
   if cause = 3 then
     if inRemote w then word [fb 63 true, (48, 10, inLane w), (42, 6, det), (0, 16, inCh w)] else word [(42, 6, det), (0, 19, inCh w)]
   else if cause = 8 then 0 else word [(0, 19, det)])
/-- The clusters of the ACTIVE regions, in ascending virtual order. -/
def activeClusters (d : Dev) : List (Nat × Nat) :=
  (sortBy (fun x : Nat × Tile => x.2.vtile) (activeTiles d)).flatMap fun (p, _) => (List.range 16).map fun c => (p, c)
def waitCause (d : Dev) (p c : Nat) : Nat := (clusterStatus d p c).2.1
/-- STALL with its report. -/
def stallReport (d : Dev) : Dev :=
  let l := activeClusters d
  let w := l.filter fun (p, c) => let k := waitCause d p c
    (decide (1 ≤ k) && decide (k ≤ 5)) || k = 8
  { d with run := { d.run with
      stall := true, wdogCycle := d.run.committed, waiting := w.length, overflow := decide (4096 < w.length)
      barrierCount := (l.filter fun (p, c) => waitCause d p c = 6).length
      await := if d.run.draining then none else (partnerLinks d).find? fun l => !(linkOf d l).eocIn
      report := (w.take 4096).map fun (p, c) => reportEntry d p c } }
/-- The watchdog expires. -/
def watchdog (d : Dev) : Dev :=
  if !((d.run.st = .running && !held d) || d.run.st = .stopping) || d.run.wdogMs = 0 then d
  else
    let d := if d.run.stall then d else stallReport d
    if d.run.wdogAction then forceStop 2 d else d

/-! ## Pace (R186 to R188) -/

/-- The barrier waits for partner markers alone (R81). -/
def waitsForMarkers (d : Dev) : Bool := cycleOpen d && allDone d && pinsResolved d && !markersIn d
/-- A cause of Table 1.4 holds a cluster, the barrier or the module now. -/
def waitsNow (d : Dev) : Bool :=
  holdCode d.run = 1 || waitsForMarkers d || (activeClusters d).any fun (p, c) =>
    let k := waitCause d p c
    decide (1 ≤ k) && decide (k ≤ 5)
/-- What binds the rails now and what waits now are noted for the window. -/
def noteNow (d : Dev) : Dev :=
  let d := noteLimit d
  if !atCeiling d.th && waitsNow d then { d with run := { d.run with paceWaits := true } } else d
/-- A 1 ms window ends; the next one starts from what binds the rails and what waits now. -/
def paceWindow (d : Dev) : Dev :=
  let d := noteNow d
  let n := d.run.paceCommits * 1000
  noteNow { d with run := { d.run with paceActual := n, paceLimit := paceLimitOf d.run n, paceCommits := 0
                                       paceThermal := false, pacePower := false, paceWear := false, paceVolt := false
                                       paceWaits := false } }
/-- The rate cap holds no longer. -/
def capRelease (d : Dev) : Dev :=
  if d.run.st = .running && d.run.holdCap && decide (paceDue d ≤ d.run.capTicks) then resume (setHold d.run.holdTrail false d) else d

/-- TRAIL_CTRL (R196): PIN = 0 ends a trail hold, and the trailhead advances. -/
def writeTrailCtrl (v : W64) (d : Dev) : Dev :=
  let d := { d with trail := { d.trail with pin := bit v 8, interval := fld v 4 0 } }
  if d.run.holdTrail && !d.trail.pin then
    resume (setHold false d.run.holdCap (advance { d with trail := { d.trail with pinUse := false } }))
  else d

/-! ## Mailbox commands -/

/-- RUN: the registers are written, then RUN_ENABLE (R302); held in STOPPING, it completes at once (R170). -/
def runCmd (env : PinEnv) (c : Cmd) (d : Dev) : Nat × List W64 × Dev :=
  let d := writeStopAt (c.par 3) { d with run := { d.run with count := fld (c.par 2) 47 0 } }
  let d := writeRunMode (bit (c.par 1) 0) (bit (c.par 1) 1) d
  let wait := d.run.st = .stopping
  let d := enableRun env d
  (if wait then 0 else d.run.checkReason, [], d)
/-- FORCE_STOP completes once the module is STOPPED. -/
def forceStopCmd (c : Cmd) (d : Dev) : Dev :=
  let d := forceStop 1 d
  if d.run.st = .stopping ∨ d.run.st = .running then holdCmd c d else respond c 0 [w64 d.run.committed] d
/-- SET_PACE. -/
def setPaceCmd (c : Cmd) (d : Dev) : Nat × List W64 × Dev :=
  (0, [], { d with run := { d.run with paceTarget := fld (c.par 1) 31 0, paceCap := fld (c.par 2) 31 0 } })

/-! ## Commands -/

/-- The RW fields of RUN_CTRL. -/
def runModeBits (d : Dev) : W64 := word [fb 4 d.run.mode, fb 3 d.run.stopAtEn]
def execRunEnable (m : Master) (env : PinEnv) (s : State) : Host.Outcome State Fault Refusal :=
  lift (fun d => byWrite m (aRun 0x100) (runModeBits d ||| 1) (enableRun env) d env) s
def execBaseCheckpoint (env : PinEnv) (s : State) : Host.Outcome State Fault Refusal := lift (baseDone env) s
def execReleaseStage (env : PinEnv) (s : State) : Host.Outcome State Fault Refusal := lift (releaseStage env) s
def execRun (seat : Seat) (env : PinEnv) (s : State) : Host.Outcome State Fault Refusal :=
  lift (execNow seat 0x0301 (runCmd env)) s
def execRunCtrlStop (m : Master) (s : State) : Host.Outcome State Fault Refusal := 
  lift (fun d => byWrite m (aRun 0x100) (runModeBits d ||| 2) stopRun d) s
def execStop (seat : Seat) (s : State) : Host.Outcome State Fault Refusal :=
  lift (execNow seat 0x0302 fun _ d => (0, [], stopRun d)) s
def execRunCtrlForceStop (m : Master) (s : State) : Host.Outcome State Fault Refusal :=
  lift (fun d => byWrite m (aRun 0x100) (runModeBits d ||| 4) (forceStop 1) d) s
def execForceStop (seat : Seat) (s : State) : Host.Outcome State Fault Refusal := lift (execCmd seat 0x0303 forceStopCmd) s
def execStopAtWrite (m : Master) (v : W64) (s : State) : Host.Outcome State Fault Refusal :=
  lift (byWrite m (aRun 0x110) v (writeStopAt v)) s
def execHaltN (low : Bool) (ns : Nat) (s : State) : Host.Outcome State Fault Refusal := lift (haltPin low ns) s
def execStopDrainComplete (env : PinEnv) (s : State) : Host.Outcome State Fault Refusal := lift (stopDone env) s
def execInternalCheckFailed (s : State) : Host.Outcome State Fault Refusal := lift (enterFaulted 0x0006) s
def execWatchdogExpiry (s : State) : Host.Outcome State Fault Refusal := lift watchdog s
def execPaceCapRelease (s : State) : Host.Outcome State Fault Refusal := lift capRelease s
def execPaceWindow (s : State) : Host.Outcome State Fault Refusal := lift paceWindow s
def execSetPace (seat : Seat) (s : State) : Host.Outcome State Fault Refusal := lift (execNow seat 0x0901 setPaceCmd) s
def execTrailPinWrite (m : Master) (v : W64) (s : State) : Host.Outcome State Fault Refusal :=
  lift (byWrite m (aTrail 0) v fun d => if byOneOf m [.manager, .run] then writeTrailCtrl v d else d) s

end Sys2Proof.Machine
end

