-- ==== Sys2Proof/Machine/HubRegs.lean ====
section
/-! DEFINITION. The registers of the Basket, capture and trail blocks (Tables 11.7 and 11.8, 10.10 and 10.11, 9.4 and 9.5), and the
Keep store as the service network reads it (Table 14.8). -/

namespace Sys2Proof.Machine

/-! ## Basket -/

/-- BASKET_FLOW_STATE (Tables 11.2 and 11.8). -/
def flowWord (d : Dev) (flow : Nat) : W64 :=
  match flowHead? d flow with
  | none => 0
  | some x => word [(62, 2, x.st), (59, 3, x.prio), (24, 24, x.slot), (0, 24, (flowItems d flow).length)]
/-- BASKET_PORT. -/
def portWord (d : Dev) (p : Nat) : W64 :=
  word [fb 63 (portCtx? d 2 p).isSome, fb 62 (portCtx? d 3 p).isSome, (48, 8, windowM1 d p), (32, 9, outstanding d p), (0, 8, readyBits d p)]
/-- A register of the Basket block. -/
def bktRegRead (d : Dev) (off : Nat) : W64 :=
  let b := d.bkt
  match off with
  | 0x00 => word [(48, 16, b.reason), (16, 24, b.badIndex), fb 4 b.replayMismatch, fb 3 b.complOrphan, fb 2 b.depOrphan, fb 1 b.refused]
  | 0x10 => w64 (bktSlots d)
  | 0x18 => w64 b.head
  | 0x20 => word [fb 16 b.phase, (0, 16, b.tail)]
  | 0x28 => word [(32, 32, (b.descs.filter fun x => x.st = 4).length), (0, 17, b.staged.length)]
  | 0x40 => b.submitted
  | 0x48 => b.refusedCount
  | 0x50 => b.deliveredCount
  | 0x58 => b.completed
  | 0x60 => b.depOrphans
  | 0x68 => b.depUnderflow
  | 0x70 => b.complOrphans
  | 0x78 => b.replayMismatches
  | 0x80 => b.returned
  | 0x88 => b.hostWriteRefused
  | 0x90 => b.traceWait
  | 0x100 => w64 b.flowSel
  | 0x108 => flowWord d b.flowSel
  | _ => if 0x1000 ≤ off ∧ off < 0x9000 then portWord d ((off - 0x1000) / 8) else 0
/-- BASKET_STATUS clears. -/
def clearBktStatus (v : W64) (b : Basket) : Basket :=
  { b with replayMismatch := b.replayMismatch && !bit v 4, complOrphan := b.complOrphan && !bit v 3
           depOrphan := b.depOrphan && !bit v 2, refused := b.refused && !bit v 1 }
/-- A write to the block (R244). -/
def bktRegWrite (m : Master) (off : Nat) (v : W64) (d : Dev) : Dev :=
  let rw (f : Basket → Basket) : Dev := if byOneOf m [.manager, .run] then { d with bkt := f d.bkt } else d
  match off with
  | 0x00 => { d with bkt := clearBktStatus v d.bkt }
  | 0x08 => if byOneOf m [.manager, .run] then submitWrite false v d else d
  | 0x18 => rw fun b => { b with head := fld v 15 0 }
  | 0x100 => rw fun b => { b with flowSel := fld v 17 0 }
  | _ =>
    if 0x1000 ≤ off ∧ off < 0x9000 then rw fun b => { b with window := tset 0x3F b.window ((off - 0x1000) / 8) (fld v 55 48) } else d

/-! ## Capture -/

def phaseCode : CapPhase → Nat
  | .none => 0
  | .ring => 1
  | .post => 2
  | .rearm => 3
/-- OPEN: a window is held across a stop (R223); 0 while the open window holds no record yet (log entry 13). -/
def capOpen (d : Dev) : Bool :=
  d.cap.armed && (d.run.st = .stopped || d.run.st = .stranded) && dies.any fun die => !(dieOf d die).window.isEmpty
/-- CAP_STATUS. -/
def capStatusWord (d : Dev) : W64 :=
  let c := d.cap
  word [(48, 16, c.reason), (16, 16, c.hamper), (6, 2, phaseCode c.phase), fb 5 (capOpen d), fb 4 c.cfgRefused, fb 3 c.ended, fb 2 c.folded
       , fb 1 c.armed]
/-- A register of the capture block. -/
def capRegRead (d : Dev) (off : Nat) : W64 :=
  let c := d.cap
  match off with
  | 0x00 => word [fb 1 c.armed]
  | 0x08 => word [(48, 16, c.hampersM1), (40, 8, c.rearm)]
  | 0x10 => word [(32, 25, c.postQ), (0, 25, c.preP)]
  | 0x18 => word [(32, 21, c.budget), (8, 5, c.k), (0, 5, c.f)]
  | 0x20 => capStatusWord d
  | 0x28 => word [(32, 17, c.closed), (0, 17, c.next)]
  | 0x30 => c.nets
  | 0x38 => word [(32, 32, c.lostRearm), (0, 32, c.lostPost)]
  | 0x40 => c.foldedCount
  | 0x48 => c.records
  | 0x50 => w64 c.slot
  | 0x100 => word [fb 10 c.seqTaken, (8, 2, c.seqLast), (0, 4, c.seqState)]
  | _ =>
    if 0x80 ≤ off ∧ off < 0xC0 then w64 (tget 0 c.seqCount ((off - 0x80) / 8))
    else if 0xC0 ≤ off ∧ off < 0x100 then w64 (tget 0 c.seqCmp ((off - 0xC0) / 8))
    else if 0x1000 ≤ off ∧ off < 0x1400 then tget 0 (if off % 16 = 0 then c.seqEntry else c.seqMask) ((off - 0x1000) / 16)
    else if 0x8000 ≤ off ∧ off < 0xC000 then tget 0 c.tapEn ((off - 0x8000) / 8) &&& tapMask d ((off - 0x8000) / 8)
    else if 0xC000 ≤ off then tget 0 c.tapFold ((off - 0xC000) / 8) &&& tapMask d ((off - 0xC000) / 8)
    else 0
/-- CAP_CTRL: DISARM, then ARM. -/
def writeCapCtrl (v : W64) (d : Dev) : Dev :=
  let d := if bit v 2 then (capDisarm d).2 else d
  if bit v 1 then (capArm d).2 else d
/-- A write to the block (R225). -/
def capRegWrite (m : Master) (off : Nat) (v : W64) (d : Dev) : Dev :=
  if off = 0x20 then
    { d with cap := { d.cap with cfgRefused := d.cap.cfgRefused && !bit v 4, ended := d.cap.ended && !bit v 3
                                 folded := d.cap.folded && !bit v 2 } }
  else if !capWriter m then d
  else if off = 0 then writeCapCtrl v d
  else capWrite off v d

/-! ## Trail -/

/-- TRAIL_STATUS. -/
def trailStatusWord (d : Dev) : W64 :=
  let t := d.trail
  word [(48, 16, t.reason), (8, 4, t.short.toNat), (6, 2, t.headCause), fb 5 t.abortLate, fb 4 t.repairPending, fb 3 (inReplay d)
       , fb 2 d.run.holdTrail, fb 1 (trailOn d), fb 0 t.empty]
/-- TRAIL_STREAM_DONE. -/
def streamDoneWord (d : Dev) : W64 :=
  let T := tileOf d d.trail.selTile
  let g := ctxCfg T d.trail.selCtx
  if T.loaded && g.valid && counted g then word [fb 63 true, (0, 40, (ctxOf T d.trail.selCtx).countOld)] else 0
/-- TRAIL_RING of a die, in whole MiB. -/
def ringWord (d : Dev) (die : Nat) : W64 :=
  if trailOn d then word [(32, 32, ringUsed d die / 2 ^ 20), (0, 32, (ringSize d - ringUsed d die) / 2 ^ 20)] else 0
/-- A register of the trail block. -/
def trailRegRead (d : Dev) (off : Nat) : W64 :=
  let t := d.trail
  match off with
  | 0x00 => word [fb 8 t.pin, (0, 5, t.interval)]
  | 0x08 => trailStatusWord d
  | 0x10 => w64 t.head
  | 0x18 => w64 t.ckptLast
  | 0x20 => w64 t.replay
  | 0x28 => w64 t.lastRewind
  | 0x30 => t.moved
  | 0x38 => t.skipped
  | 0x40 => t.forced
  | 0x48 => t.rescinded
  | 0x50 => t.rewindBytes
  | 0x60 => ringWord d 0
  | 0x68 => ringWord d 1
  | 0x70 => ringWord d 2
  | 0x78 => ringWord d 3
  | 0x80 => word [(16, 10, t.selTile), (0, 9, t.selCtx)]
  | 0x88 => streamDoneWord d
  | _ => 0
/-- A write to the block (R206). -/
def trailRegWrite (m : Master) (off : Nat) (v : W64) (d : Dev) : Dev :=
  let ok := byOneOf m [.manager, .run]
  match off with
  | 0x00 => if ok then writeTrailCtrl v d else d
  | 0x08 => { d with trail := { d.trail with abortLate := d.trail.abortLate && !bit v 5 } }
  | 0x80 => if ok then { d with trail := { d.trail with selTile := fld v 25 16, selCtx := fld v 8 0 } } else d
  | _ => d

/-! ## The Keep store (R309 to R311) -/

/-- The 96 bytes of a key slot, X then Y, big-endian. -/
def keyBytes (k : Keep) (slot : Nat) : List Byte :=
  let (x, y) := tget (0, 0) k.keys slot
  (bytesOf 48 x).reverse ++ (bytesOf 48 y).reverse
/-- An entry word of the log as it stands in the ring. -/
def logWord (k : Keep) (off : Nat) : W64 :=
  let first := k.logNext - k.log.length
  let i := (off / 32 + 524288 - first % 524288) % 524288
  (k.log.getD i []).getD (off % 32 / 8) 0
/-- Eight bytes of the Keep store; the layout of the firmware directory is open (log entry 6). -/
def keepRead (d : Dev) (off : Nat) : W64 × Dev :=
  let k := d.keep
  if off < 0x100_0000 then (w64 (mread k.slotA off 8), d)
  else if off < 0x200_0000 then (w64 (mread k.slotB (off - 0x100_0000) 8), d)
  else if off < 0x201_0000 then takeFreeWord d
  else if off < 0x202_0000 then
    let o := off - 0x201_0000
    if o < 512 then (if o % 128 < 96 then w64 (leAt (keyBytes k (o / 128)) (o % 128) 8) else 0, d)
    else (if o = 0x200 then w64 (b2n k.required) else 0, d)
  else if off < 0x203_0000 then (tget 0 k.ledger ((off - 0x202_0000) / 8), d)
  else if 0x210_0000 ≤ off ∧ off < 0x220_0000 then (w64 (mread k.calib (off - 0x210_0000) 8), d)
  else if 0x220_0000 ≤ off ∧ off < 0x320_0000 then (logWord k (off - 0x220_0000), d)
  else (0, d)

end Sys2Proof.Machine
end

