-- ==== Sys2Proof/Machine/Irq.lean ====
section
/-! DEFINITION. The interrupt controller (chapter 15): sensing, pending states, selection, claims and completes, MSI-X messages,
the alert view. -/

namespace Sys2Proof.Machine

/-! ## Sources (Tables 15.9 and 17.7) -/

def pulseSource (s : Nat) : Bool :=
  [0x012, 0x013, 0x017, 0x018, 0x019, 0x01D, 0x031, 0x041].contains s || (decide (0x100 ≤ s) && decide (s ≤ 0x10F))
def lineSource (s : Nat) : Bool :=
  (decide (1 ≤ s) && decide (s ≤ 4))
    || [0x010, 0x011, 0x014, 0x015, 0x016, 0x01A, 0x01B, 0x01C, 0x020, 0x021, 0x022, 0x030, 0x040, 0x043, 0x044, 0x045, 0x046,
        0x047].contains s
    || (decide (0x400 ≤ s) && decide (s < 0x610))
/-- An ID that is not reserved. -/
def knownSource (s : Nat) : Bool := pulseSource s || lineSource s || (decide (0x200 ≤ s) && decide (s < 0x400))
/-- The known IDs of a word of 64. -/
def knownWord (w : Nat) : W64 := (List.range 64).foldl (fun m i => setBit m i (knownSource (64 * w + i))) 0

/-! ## Words of source bits and configuration -/

def srcBit (t : Tbl W64) (s : Nat) : Bool := bit (tget 0 t (s / 64)) (s % 64)
def putSrc (t : Tbl W64) (s : Nat) (b : Bool) : Tbl W64 := tupd 0 t (s / 64) fun w => setBit w (s % 64) b
/-- The reset value of IRQ_SRC_CFG (Table 15.12). -/
def srcCfgReset (s : Nat) : W64 :=
  word [(61, 2, b2n (pulseSource s)), (8, 5, 0x1F)]
/-- IRQ_SRC_CFG. -/
def srcCfg (q : Irq) (s : Nat) : W64 := tget 0 q.cfg s ^^^ srcCfgReset s
def srcPrio (q : Irq) (s : Nat) : Nat := fld (srcCfg q s) 3 0
def srcEnabled (q : Irq) (s : Nat) : Bool := bit (srcCfg q s) 63
def srcTarget (q : Irq) (s : Nat) : Nat := fld (srcCfg q s) 12 8
/-- SENSE as it acts: a pulse source is sensed as RISING (R328). -/
def srcSense (q : Irq) (s : Nat) : Nat := if pulseSource s then 1 else fld (srcCfg q s) 62 61

/-- A source's pending bit (R329). -/
def srcPending (q : Irq) (s : Nat) : Bool :=
  knownSource s && (srcBit q.soft s || if srcSense q s = 0 then srcBit q.line s else srcBit q.edge s)
/-- IRQ_PENDING word w. -/
def pendingWord (q : Irq) (w : Nat) : W64 := (List.range 64).foldl (fun m i => setBit m i (srcPending q (64 * w + i))) 0

/-! ## Selection (R330) -/

def claimsOf (q : Irq) (t : Nat) : List Claim := tget [] q.claims t
/-- RUNNING of a target. -/
def running (q : Irq) (t : Nat) : Nat :=
  match claimsOf q t with
  | c :: _ => c.prio
  | [] => 0
def thresholdOf (q : Irq) (t : Nat) : Nat := tget 0 q.threshold t
def selectedOf (q : Irq) (t : Nat) : Nat := tget 0 q.selected t
def candidate (q : Irq) (t s : Nat) : Bool :=
  srcEnabled q s && srcTarget q s = t && srcPending q s && !srcBit q.active s
    && decide (max (thresholdOf q t) (running q t) < srcPrio q s)
/-- The candidate of highest priority, the lowest ID among equals; 0 for none. A candidate's configuration is listed, since
ENABLE resets to 0. -/
def bestOf (q : Irq) (t : Nat) : Nat :=
  q.cfg.foldl (fun b (s, _) => if candidate q t s && (b = 0 || decide (srcPrio q b < srcPrio q s)) then s else b) 0
/-- A selection whose source has been masked or is no longer pending stays until a claim returns the spurious ID (R332). -/
def stale (q : Irq) (t s : Nat) : Bool :=
  s ≠ 0 && srcTarget q s = t && !srcBit q.active s && (!srcEnabled q s || !srcPending q s)
    && decide (max (thresholdOf q t) (running q t) < srcPrio q s)
def reselect (q : Irq) (t : Nat) : Irq :=
  let b := bestOf q t
  let s := selectedOf q t
  let n := if stale q t s && (b = 0 || decide (srcPrio q b ≤ srcPrio q s)) then s else b
  { q with selected := tset 0 q.selected t n }
/-- Every target selects anew. -/
def reselectAll (q : Irq) : Irq := (List.range 20).foldl reselect q

/-! ## Events (R327 to R329) -/

/-- Whether a change of a line is an edge under SENSE. -/
def isEdge (sense : Nat) (old new : Bool) : Bool :=
  match sense with
  | 1 => !old && new
  | 2 => old && !new
  | 3 => old != new
  | _ => false
/-- A sensed edge: the pending bit, or a merge. -/
def senseEdge (s : Nat) (q : Irq) : Irq :=
  { q with merged := if srcPending q s then q.merged + 1 else q.merged, edge := putSrc q.edge s true }
/-- An EVENT packet reaches the controller; a software ID is raised by IRQ_SET alone (R327). -/
def applyEvent (e : Event) (q : Irq) : Irq :=
  let s := e.source
  if !(pulseSource s || lineSource s) then q
  else
    let q := if e.lane < 1024 then { q with linkEvent := putSrc q.linkEvent e.lane true } else q
    let old := srcBit q.line s
    let q' := if e.pulse then senseEdge s q
      else
        let q' := if isEdge (srcSense q s) old e.level then senseEdge s q else q
        { q' with line := putSrc q'.line s e.level }
    reselectAll q'
/-! ## Claims and completes (R331, R332) -/

/-- The source becomes active and loses its pending states; a LEVEL source keeps its line. -/
def activate (s : Nat) (q : Irq) : Irq :=
  { q with active := putSrc q.active s true, soft := putSrc q.soft s false
           edge := if srcSense q s = 0 then q.edge else putSrc q.edge s false }
/-- A read of IRQ_CLAIM of target t. -/
def claimIrq (t : Nat) (q : Irq) : Nat × Irq :=
  let s := selectedOf q t
  let q := { q with msixOut := setBit q.msixOut (t - 4) (q.msixOut.getLsbD (t - 4) && decide (t < 4)) }
  let free (q : Irq) : Irq := { q with selected := tset 0 q.selected t 0 }
  if s ≠ 0 && candidate q t s then
    (s, reselectAll (free { activate s q with claims := tset [] q.claims t (⟨s, srcPrio q s⟩ :: claimsOf q t) }))
  else (0x7FF, reselectAll (free { q with spurious := q.spurious + 1 }))
/-- A write of IRQ_COMPLETE of target t. -/
def completeIrq (t : Nat) (v : W64) (q : Irq) : Irq :=
  let s := fld v 10 0
  match claimsOf q t with
  | c :: r =>
    if c.source = s then
      reselectAll { q with claims := tset [] q.claims t r, active := putSrc q.active s false
                           msixOut := setBit q.msixOut (t - 4) (q.msixOut.getLsbD (t - 4) && decide (t < 4)) }
    else { q with badComplete := q.badComplete + 1 }
  | [] => { q with badComplete := q.badComplete + 1 }

/-! ## Register writes -/

/-- IRQ_SET word w: software pending bits, but for reserved IDs. -/
def setIrq (w : Nat) (v : W64) (q : Irq) : Irq := reselectAll { q with soft := tupd 0 q.soft w (· ||| (v &&& knownWord w)) }
/-- IRQ_PENDING word w: software pending bits and edge states clear. -/
def clearIrq (w : Nat) (v : W64) (q : Irq) : Irq :=
  reselectAll { q with soft := tupd 0 q.soft w (· &&& ~~~v), edge := tupd 0 q.edge w (· &&& ~~~v) }
/-- The ALERT sources of a word. -/
def alertWord (q : Irq) (w : Nat) : W64 := (List.range 64).foldl (fun m i => setBit m i (bit (srcCfg q (64 * w + i)) 60)) 0
/-- IRQ_THRESHOLD of target t. -/
def writeThreshold (t : Nat) (v : W64) (q : Irq) : Irq := reselectAll { q with threshold := tset 0 q.threshold t (fld v 3 0) }
/-- IRQ_SRC_CFG of source s; writes to reserved IDs are ignored. -/
def writeSrcCfg (s : Nat) (v : W64) (q : Irq) : Irq :=
  if knownSource s then reselectAll { q with cfg := tset 0 q.cfg s ((v &&& 0xF000_0000_0000_1F0F) ^^^ srcCfgReset s) } else q
/-- IRQ_LINK_EVENT of group g. -/
def clearLinkEvent (g : Nat) (v : W64) (q : Irq) : Irq := { q with linkEvent := tupd 0 q.linkEvent g (· &&& ~~~v) }

/-- The seat and the table entry of a host vector (R333). -/
def vectorSeat (v : Nat) : Seat × Nat := if v < 8 then (.manager, v) else if v < 12 then (.run, v - 8) else (.debug, v - 12)
/-- The masters that write the controller; a seat also completes on its own vectors (R333, R336). -/
def irqWriter (m : Master) : Bool := m = .core || byOneOf m [.manager]
def ownVector (m : Master) (t : Nat) : Bool := decide (4 ≤ t) && decide (m = .seat (vectorSeat (t - 4)).1)
/-- IRQ_TARGET_STATE of target t. -/
def targetState (q : Irq) (t : Nat) : W64 :=
  word [(24, 4, (claimsOf q t).length), (20, 4, running q t), fb 11 (selectedOf q t ≠ 0), (0, 11, selectedOf q t)]

/-! ## The alert view (R334) -/

/-- Word w of the board seat's alert view. -/
def alertView (q : Irq) (w : Nat) : W64 := pendingWord q w &&& alertWord q w
/-- ALERT_N is low. -/
def alertLow (q : Irq) : Bool := (List.range 32).any fun w => alertView q w ≠ 0
/-- A write of IRQ_PENDING by a master: the board seat reaches the ALERT sources alone. -/
def writePending (m : Master) (w : Nat) (v : W64) (q : Irq) : Irq :=
  if irqWriter m then clearIrq w v q
  else if m = .seat .board then clearIrq w (v &&& alertWord q w) q
  else q

/-! ## MSI-X (R333) -/

/-- The MSI-X table entry e of a seat: address, data, vector control (16 bytes each). -/
def msixWord (S : SeatSt) (e half : Nat) : W64 := tget 0 S.msix (2 * e + half)
/-- A message of vector v is held. -/
def msixHeld (d : Dev) (v : Nat) : Bool :=
  let (seat, e) := vectorSeat v
  let S := seatOf d.host seat
  !S.session || !S.msixEnable || S.funcMask || bit (msixWord S e 1) 32 || !S.busMaster
/-- The vector has a selection and no message outstanding. -/
def msixDue (q : Irq) (v : Nat) : Bool := selectedOf q (4 + v) ≠ 0 && !q.msixOut.getLsbD v
/-- The Pending Bit Array of a seat. -/
def pbaOf (q : Irq) (d : Dev) (seat : Seat) : W64 :=
  (List.range 16).foldl (fun m v => if (vectorSeat v).1 = seat then setBit m (vectorSeat v).2 (msixDue q v && msixHeld d v) else m) 0
/-- MSIX_MESSAGE: the entry's message goes out on the port of the seat's session. -/
def sendMsix (v : Nat) (q : Irq) (d : Dev) : Irq × Dev :=
  if nocOn d.clk && msixDue q v && !msixHeld d v then
    let (seat, e) := vectorSeat v
    let S := seatOf d.host seat
    ({ q with msixOut := setBit q.msixOut v true },
     { d with host := { d.host with msixSent := d.host.msixSent ++ [(S.port, v, msixWord S e 0, w64 (fld (msixWord S e 1) 31 0))] } })
  else (q, d)

/-! ## Trace records (Table 16.3) and the operations on controller and module -/

/-- A RECORD of source 0x10: EVENT, target, priority, source ID. -/
def irqRecord (ev t prio s : Nat) (d : Dev) : Dev := trace 0x10 8 [word [(60, 4, ev), (55, 5, t), (51, 4, prio), (0, 11, s)]] d
/-- A PENDING record for a source whose pending bit went from 0 to 1. -/
def notePending (old new : Irq) (d : Dev) (s : Nat) : Dev :=
  if !srcPending old s && srcPending new s then irqRecord 1 (srcTarget new s) (srcPrio new s) s d else d
/-- The bits of a word of sources. -/
def wordSources (w : Nat) (v : W64) : List Nat := (bitsOf 64 v.toNat).map (64 * w + ·)

/-- The packet that carries an event (Table 15.3). -/
def eventPacket (e : Event) (epoch : Bool) : Packet :=
  ⟨4, 2, epoch, e.node, irqNode, 0, 0, 0, 255, 0, 0, [word [fb 12 e.pulse, fb 11 e.level, (0, 11, e.source)]]⟩
/-- An event comes to the end of its way: the controller, or where it is dropped and counted (R321, R322). -/
def landEvent (e : Event) (q : Irq) (d : Dev) : Irq × Dev :=
  let (n, d) := travel (eventPacket e (e.sent.getD false)) true 14 d
  if n = 0 then let q' := applyEvent e q; (q', notePending q q' d e.source) else (q, countDrop n d)
/-- The injected events of a node up to and including the first that `stop` names, and the events that stay: those of one node arrive in
the order of their injection (R318). -/
def splitEvents (node : Nat) (stop : Event → Bool) : List Event → List Event × List Event
  | [] => ([], [])
  | e :: rest =>
    if e.node = node && e.sent.isSome then
      if stop e then ([e], rest) else let (a, b) := splitEvents node stop rest; (e :: a, b)
    else let (a, b) := splitEvents node stop rest; (a, e :: b)
def landAll (node : Nat) (stop : Event → Bool) (q : Irq) (d : Dev) : Irq × Dev :=
  let (now, rest) := splitEvents node stop d.events
  now.foldl (fun (q, d) e => landEvent e q d) (q, { d with events := rest })
/-- The oldest packet of a source on its way reaches node 4, and before it those that its node injected earlier, while the network's clock
runs. -/
def deliverEvent (source : Nat) (q : Irq) (d : Dev) : Irq × Dev :=
  match if nocOn d.clk then d.events.find? fun e => e.source = source && e.sent.isSome else none with
  | none => (q, d)
  | some e => landAll e.node (fun x => x.source = source) q d
/-- A request that reaches the controller finds every earlier event of its node there (R318). -/
def flushNode (node : Nat) (q : Irq) (d : Dev) : Irq × Dev := landAll node (fun _ => false) q d

/-- A read of IRQ_CLAIM, with its record. -/
def claimAt (t : Nat) (q : Irq) (d : Dev) : Nat × Irq × Dev :=
  let (s, q') := claimIrq t q
  (s, q', if s = 0x7FF then irqRecord 4 t 0 s d else irqRecord 2 t (srcPrio q s) s d)
/-- A write of IRQ_COMPLETE, with its record where it is accepted. -/
def completeAt (t : Nat) (v : W64) (q : Irq) (d : Dev) : Irq × Dev :=
  (completeIrq t v q, match claimsOf q t with
    | c :: _ => if c.source = fld v 10 0 then irqRecord 3 t c.prio c.source d else d
    | [] => d)
/-- A write of IRQ_SET, with its records. -/
def setAt (w : Nat) (v : W64) (q : Irq) (d : Dev) : Irq × Dev :=
  let q' := setIrq w v q
  (q', (wordSources w v).foldl (notePending q q') d)
/-- A write of IRQ_SRC_CFG, with its record. -/
def cfgAt (s : Nat) (v : W64) (q : Irq) (d : Dev) : Irq × Dev :=
  let q' := writeSrcCfg s v q
  (q', notePending q q' d s)

/-! ## Commands -/

/-- A write to the controller. -/
def irqWrite (m : Master) (off : Nat) (v : W64) (f : Irq → Dev → Irq × Dev) (q : Irq) (d : Dev) : Irq × Dev :=
  let (g, d) := enter m (aIrq off) d
  if g = 0 then let (q, d) := flushNode (masterNode d m) q d; f q d
  else (q, if g = 20 then holdAccess (.posted m) m (aIrq off) (some (v, 255)) PinEnv.none d
    else if failed g then seatError m false d else d)

def execIrqEvent (source : Fin 2048) (s : State) : Host.Outcome State Fault Refusal := liftAll (deliverEvent source) s
/-- A claim by a master. -/
def readClaim (m : Master) (t : Nat) (q : Irq) (d : Dev) : Irq × Dev :=
  let a := aIrq (0x108 + 32 * t)
  let (g, d) := gate m false (askAt false a) d
  if g = 0 then
    let (q, d) := flushNode (masterNode d m) q d
    let (s, q, d) := claimAt t q d
    (q, reply m false a 0 (w64 s) d)
  else (q, if g = 20 then holdAccess (.direct m) m a none PinEnv.none d else endGate m false g d)
def execIrqClaim (m : Master) (target : Fin 20) (s : State) : Host.Outcome State Fault Refusal := liftAll (readClaim m target) s
def execIrqComplete (m : Master) (target : Fin 20) (v : W64) (s : State) : Host.Outcome State Fault Refusal :=
  liftAll (irqWrite m (0x110 + 32 * target) v fun q d => if irqWriter m || ownVector m target then completeAt target v q d else (q, d)) s
def execIrqSet (m : Master) (word : Fin 32) (v : W64) (s : State) : Host.Outcome State Fault Refusal :=
  liftAll (irqWrite m (0x1100 + 8 * word) v fun q d => if irqWriter m then setAt word v q d else (q, d)) s
def execIrqPendingWrite (m : Master) (word : Fin 32) (v : W64) (s : State) : Host.Outcome State Fault Refusal :=
  liftAll (irqWrite m (0x1000 + 8 * word) v fun q d => (writePending m word v q, d)) s
def execMsixMessage (vector : Fin 16) (s : State) : Host.Outcome State Fault Refusal := liftAll (sendMsix vector) s

end Sys2Proof.Machine
end

