-- ==== Sys2Proof/Machine/Net.lean ====
section
/-! DEFINITION. The service network (chapter 15): its registers, dead targets and power domains. -/

namespace Sys2Proof.Machine

/-! ## Register writes (Table 15.8) -/

/-- The masters that write the block (R326). -/
def netWriter (m : Master) : Bool := m = .core || byOneOf m [.manager]
/-- The banks change roles (R323, order 5). -/
def swapBanks (n : Sn) : Sn := { n with current := !n.current, draining := true }
/-- SN_EPOCH: RT_REFUSED and SWAP (R323, R324). -/
def writeEpoch (v : W64) (d : Dev) : Dev :=
  let n := { d.sn with rtRefused := d.sn.rtRefused && !bit v 4 }
  { d with sn := if !bit v 0 then n else if n.draining then { n with swapPending := true } else swapBanks n }
def writeRtSel (v : W64) (d : Dev) : Dev :=
  { d with sn := { d.sn with router := fld v 58 48, bank := bit v 47, dest := fld v 10 0 } }
/-- SN_RT_DATA: the shadow bank outside a drain, else RT_REFUSED (R323). -/
def writeRtData (v : W64) (d : Dev) : Dev :=
  let n := d.sn
  if n.draining ∨ n.bank = n.current then logOpen { d with sn := { n with rtRefused := true } }
  else
    let e : BitVec 3 := v.setWidth 3 ^^^ BitVec.ofNat 3 (resetRoute n.router n.dest)
    { d with sn := { n with routes := tset 0 n.routes (routeKey n.router n.dest n.bank) e } }
/-- SN_DEAD word w: revival of the dead nodes named begins (R321). -/
def writeDead (w : Nat) (v : W64) (d : Dev) : Dev :=
  let nodes := (bitsOf 64 (tget 0 d.sn.dead w &&& v).toNat).map (64 * w + ·)
  { d with sn := { d.sn with revive := nodes.foldl (fun l n => insertNat n l) d.sn.revive } }
def writeAffect (w : Nat) (v : W64) (d : Dev) : Dev := { d with sn := { d.sn with affect := tset 0 d.sn.affect w v } }
/-- A probe's registers. -/
def writeProbe (p reg : Nat) (v : W64) (d : Dev) : Dev :=
  let f (P : Probe) : Probe := match reg with
    | 0 => { P with cfg := v &&& 0xFFFF_FFFF_FFFE_0000 }
    | 1 => { P with lo := fld v 39 0 }
    | 2 => { P with hi := fld v 39 0 }
    | _ => P
  { d with sn := { d.sn with probes := tupd Probe.reset d.sn.probes p f } }

def epochWord (n : Sn) : W64 := word [fb 4 n.rtRefused, fb 3 n.swapPending, fb 2 n.draining, fb 1 n.current]
/-- The registers of the block, as they read. -/
def snRegRead (n : Sn) (off : Nat) : W64 :=
  if off = 0 then epochWord n
  else if off = 0x08 then word [(48, 11, n.router), fb 47 n.bank, (0, 11, n.dest)]
  else if off = 0x10 then w64 (routeOf n n.router n.dest n.bank)
  else if off = 0x18 then n.blocked
  else if off = 0x20 then n.rbWait
  else if off = 0x28 then n.deadDropped
  else if off = 0x30 then n.lateResp
  else if off = 0x38 then n.absorbed
  else if 0x100 ≤ off ∧ off < 0x200 then tget 0 n.dead ((off - 0x100) / 8)
  else if 0x200 ≤ off ∧ off < 0x300 then tget 0 n.affect ((off - 0x200) / 8)
  else if 0x300 ≤ off ∧ off < 0x340 then tget 0 n.errLog ((off - 0x300) / 8)
  else if 0x400 ≤ off ∧ off < 0x480 then w64 (tget 0 n.domains ((off - 0x400) / 8)).toNat
  else if 0x800 ≤ off ∧ off < 0xA00 then
    let P := tget Probe.reset n.probes ((off - 0x800) / 64)
    [P.cfg, w64 P.lo, w64 P.hi, P.packets, P.flits, P.stall, P.dropped].getD (off % 64 / 8) 0
  else 0
/-- A write to the block. -/
def snRegWrite (off : Nat) (v : W64) (d : Dev) : Dev :=
  if off = 0 then writeEpoch v d
  else if off = 0x08 then writeRtSel v d
  else if off = 0x10 then writeRtData v d
  else if 0x100 ≤ off ∧ off < 0x200 then writeDead ((off - 0x100) / 8) v d
  else if 0x200 ≤ off ∧ off < 0x300 then writeAffect ((off - 0x200) / 8) v d
  else if 0x800 ≤ off ∧ off < 0xA00 then writeProbe ((off - 0x800) / 64) (off % 64 / 8) v d
  else d

/-! ## Domains (R322) -/

def setDomain (dom st : Nat) (restart : Bool) (d : Dev) : Dev :=
  { d with sn := { d.sn with domains := tset 0 d.sn.domains dom (BitVec.ofNat 3 (st + 4 * b2n restart)) } }
/-- A domain that is ON begins to absorb; one that absorbs does not wake again when it is OFF. One that is WAKING passes to ON first. -/
def absorb (dom : Nat) (d : Dev) : Dev := if domainState d dom ≤ 1 then setDomain dom 1 false d else d
/-- A domain is enabled again: an absorbing one completes its power-down first. -/
def enableDomain (dom : Nat) (d : Dev) : Dev :=
  match domainState d dom with
  | 1 => setDomain dom 1 true d
  | 2 => setDomain dom 3 false d
  | _ => d
/-- A request comes from the domain, goes to it, or passes its routers. -/
def usesDomain (d : Dev) (dom : Nat) (p : Packet) : Bool :=
  nodeDomain p.src = dom || (askAt false p.addr).domain = dom
    || (routePath d.sn p.src p.dst p.epoch).any (fun x => routerDomain x.1 = dom)
/-- Every request forwarded into the domain has its response, and every response owed to it has arrived (R322). -/
def domainQuiet (d : Dev) (dom : Nat) : Bool := (d.sn.owed ++ d.sn.lost).all fun p => !usesDomain d dom p

/-! ## Commands -/

def execSnRtDataWrite (m : Master) (v : W64) (s : State) : Host.Outcome State Fault Refusal :=
  lift (byWrite m (aSn 0x10) v fun d => if netWriter m then writeRtData v d else d) s
def execSnEpochSwap (m : Master) (v : W64) (s : State) : Host.Outcome State Fault Refusal :=
  lift (byWrite m (aSn 0) v fun d => if netWriter m then writeEpoch v d else d) s
def execSnDeadWrite (m : Master) (word : Fin 32) (v : W64) (s : State) : Host.Outcome State Fault Refusal :=
  lift (byWrite m (aSn (0x100 + 8 * word)) v fun d => if netWriter m then writeDead word v d else d) s
/-- 1 ms without a response of the node: its bit clears, and traffic is forwarded again. -/
def revive (node : Nat) (d : Dev) : Dev :=
  if d.sn.revive.contains node then
    let dead := tupd 0 d.sn.dead (node / 64) fun w => setBit w (node % 64) false
    { d with sn := { d.sn with revive := d.sn.revive.erase node, late := d.sn.late.filter (·.dst ≠ node), dead := dead } }
  else d
def execRevival (node : Fin 2048) (s : State) : Host.Outcome State Fault Refusal := lift (revive node) s
/-- An absorbing domain is drained: OFF, and on to WAKING where it has been enabled again; the HBM domains wake once the shut-down of their
clock is complete (R365). -/
def domainOffDone (dom : Nat) (d : Dev) : Dev :=
  if domainState d dom = 1 && domainQuiet d dom then
    if bit ((tget 0 d.sn.domains dom).setWidth 64) 2 && !(d.clk.hbmcStopping && decide (4 ≤ dom) && decide (dom < 8)) then setDomain dom 3 false d else setDomain dom 2 false d
  else d

end Sys2Proof.Machine
end

