-- ==== Sys2Proof/Machine/Crypto.lean ====
section
/-! DEFINITION. SHA-384 (FIPS 180-4) and the verification of an ECDSA P-384 signature (FIPS 186-5), which R132 and R309 name
without stating (log entry 25). -/

namespace Sys2Proof.Machine

/-! ## SHA-384 -/

def shaK : List W64 :=
  [0x428A2F98D728AE22, 0x7137449123EF65CD, 0xB5C0FBCFEC4D3B2F, 0xE9B5DBA58189DBBC,
    0x3956C25BF348B538, 0x59F111F1B605D019, 0x923F82A4AF194F9B, 0xAB1C5ED5DA6D8118]
  ++ [0xD807AA98A3030242, 0x12835B0145706FBE, 0x243185BE4EE4B28C, 0x550C7DC3D5FFB4E2,
    0x72BE5D74F27B896F, 0x80DEB1FE3B1696B1, 0x9BDC06A725C71235, 0xC19BF174CF692694]
  ++ [0xE49B69C19EF14AD2, 0xEFBE4786384F25E3, 0x0FC19DC68B8CD5B5, 0x240CA1CC77AC9C65,
    0x2DE92C6F592B0275, 0x4A7484AA6EA6E483, 0x5CB0A9DCBD41FBD4, 0x76F988DA831153B5]
  ++ [0x983E5152EE66DFAB, 0xA831C66D2DB43210, 0xB00327C898FB213F, 0xBF597FC7BEEF0EE4,
    0xC6E00BF33DA88FC2, 0xD5A79147930AA725, 0x06CA6351E003826F, 0x142929670A0E6E70]
  ++ [0x27B70A8546D22FFC, 0x2E1B21385C26C926, 0x4D2C6DFC5AC42AED, 0x53380D139D95B3DF,
    0x650A73548BAF63DE, 0x766A0ABB3C77B2A8, 0x81C2C92E47EDAEE6, 0x92722C851482353B]
  ++ [0xA2BFE8A14CF10364, 0xA81A664BBC423001, 0xC24B8B70D0F89791, 0xC76C51A30654BE30,
    0xD192E819D6EF5218, 0xD69906245565A910, 0xF40E35855771202A, 0x106AA07032BBD1B8]
  ++ [0x19A4C116B8D2D0C8, 0x1E376C085141AB53, 0x2748774CDF8EEB99, 0x34B0BCB5E19B48A8,
    0x391C0CB3C5C95A63, 0x4ED8AA4AE3418ACB, 0x5B9CCA4F7763E373, 0x682E6FF3D6B2B8A3]
  ++ [0x748F82EE5DEFB2FC, 0x78A5636F43172F60, 0x84C87814A1F0AB72, 0x8CC702081A6439EC,
    0x90BEFFFA23631E28, 0xA4506CEBDE82BDE9, 0xBEF9A3F7B2C67915, 0xC67178F2E372532B]
  ++ [0xCA273ECEEA26619C, 0xD186B8C721C0C207, 0xEADA7DD6CDE0EB1E, 0xF57D4F7FEE6ED178,
    0x06F067AA72176FBA, 0x0A637DC5A2C898A6, 0x113F9804BEF90DAE, 0x1B710B35131C471B]
  ++ [0x28DB77F523047D84, 0x32CAAB7B40C72493, 0x3C9EBE0A15C9BEBC, 0x431D67C49C100D4C,
    0x4CC5D4BECB3E42B6, 0x597F299CFC657E2A, 0x5FCB6FAB3AD6FAEC, 0x6C44198C4A475817]
def shaInit : List W64 :=
  [0xCBBB9D5DC1059ED8, 0x629A292A367CD507, 0x9159015A3070DD17, 0x152FECD8F70E5939,
   0x67332667FFC00B31, 0x8EB44A8768581511, 0xDB0C2E0D64F98FA7, 0x47B5481DBEFA4FA4]

def rotr3 (a b c : Nat) (x : W64) : W64 := x.rotateRight a ^^^ x.rotateRight b ^^^ x.rotateRight c
def rotr2s (a b c : Nat) (x : W64) : W64 := x.rotateRight a ^^^ x.rotateRight b ^^^ (x >>> c)

/-- A 64-bit word as 8 bytes, most significant first. -/
def bytesBE (w : W64) : List Byte := (bytesOf 8 w.toNat).reverse
/-- Bytes as big-endian words. -/
def wordsBE : List Byte → List W64
  | a :: b :: c :: d :: e :: f :: g :: h :: r => w64 (natOfBE [a, b, c, d, e, f, g, h]) :: wordsBE r
  | _ => []

/-- The message schedule, the latest word first: `n` more words. -/
def shaSchedule : Nat → List W64 → List W64
  | 0, w => w
  | n + 1, w =>
    let at_ (i : Nat) : W64 := w.getD (i - 1) 0
    shaSchedule n ((at_ 16 + rotr2s 1 8 7 (at_ 15) + at_ 7 + rotr2s 19 61 6 (at_ 2)) :: w)

/-- One round on the eight working words. -/
def shaRound (s : List W64) (kw : W64 × W64) : List W64 :=
  match s with
  | [a, b, c, d, e, f, g, h] =>
    let t1 := h + rotr3 14 18 41 e + ((e &&& f) ^^^ (~~~e &&& g)) + kw.1 + kw.2
    let t2 := rotr3 28 34 39 a + ((a &&& b) ^^^ (a &&& c) ^^^ (b &&& c))
    [t1 + t2, a, b, c, d + t1, e, f, g]
  | _ => s

/-- One block of 16 words. -/
def shaBlock (h : List W64) (blk : List W64) : List W64 :=
  let w := (shaSchedule 64 blk.reverse).reverse
  List.zipWith (· + ·) h ((shaK.zip w).foldl shaRound h)

/-- The padded blocks of a message; the fuel bounds their number. -/
def shaBlocks : Nat → List W64 → List (List W64)
  | 0, _ => []
  | n + 1, ws => if ws.isEmpty then [] else ws.take 16 :: shaBlocks n (ws.drop 16)

/-- SHA-384 of a byte string, as 48 bytes. -/
def sha384 (m : List Byte) : List Byte :=
  let n := m.length
  let pad := (240 - (n + 1) % 128) % 128
  let full := m ++ (0x80 :: List.replicate pad 0) ++ (bytesOf 16 (8 * n)).reverse
  let ws := wordsBE full
  (((shaBlocks (ws.length + 1) ws).foldl shaBlock shaInit).take 6).flatMap bytesBE

/-! ## The curve P-384 -/

def p384 : Nat := 2 ^ 384 - 2 ^ 128 - 2 ^ 96 + 2 ^ 32 - 1
def n384 : Nat :=
  0xFFFFFFFFFFFFFFFFFFFFFFFFFFFFFFFFFFFFFFFFFFFFFFFFC7634D81F4372DDF581A0DB248B0A77AECEC196ACCC52973
def b384 : Nat :=
  0xB3312FA7E23EE7E4988E056BE3F82D19181D9C6EFE8141120314088F5013875AC656398D8A2ED19D2A85C8EDD3EC2AEF
def g384 : Nat × Nat :=
  (0xAA87CA22BE8B05378EB1C71EF320AD746E1D3B628BA79B9859F741E082542A385502F25DBF55296C3A545E3872760AB7,
   0x3617DE4A96262C6F5D9E98BF9292DC29F8F41DBD289A147CE9DA3113B5F0B8C00A60B1CE1D7E819D7A431D7C90EA0E5F)

/-- A point with coordinates below p on the curve y² = x³ − 3x + b. -/
def onCurve (q : Nat × Nat) : Bool :=
  decide (q.1 < p384) && decide (q.2 < p384) &&
    decide ((q.2 * q.2 + 3 * q.1) % p384 = (q.1 * q.1 * q.1 + b384) % p384)

/-- x to the power given by the low `k` bits of e, modulo m. -/
def powMod (x m e : Nat) : Nat → Nat
  | 0 => 1
  | k + 1 =>
    let r := powMod x m (e / 2) k
    let r := r * r % m
    if e % 2 = 1 then r * x % m else r
/-- The inverse modulo a prime of 384 bits. -/
def invMod (x m : Nat) : Nat := powMod (x % m) m (m - 2) 384

/-- The sum of two points; `none` is the point at infinity. -/
def addPt (P Q : Option (Nat × Nat)) : Option (Nat × Nat) :=
  match P, Q with
  | none, _ => Q
  | _, none => P
  | some (x1, y1), some (x2, y2) =>
    let third (l : Nat) : Nat × Nat :=
      let x3 := (l * l + 2 * p384 - x1 - x2) % p384
      (x3, (l * (x1 + p384 - x3) + p384 - y1) % p384)
    if x1 = x2 then
      if (y1 + y2) % p384 = 0 then none
      else some (third ((3 * x1 * x1 + p384 - 3) % p384 * invMod (2 * y1) p384 % p384))
    else some (third ((y2 + p384 - y1) * invMod (x2 + p384 - x1) p384 % p384))

/-- The multiple of a point by the low `k` bits of e. -/
def mulPt (P : Option (Nat × Nat)) : Nat → Nat → Option (Nat × Nat)
  | 0, _ => none
  | k + 1, e =>
    let R := mulPt P k (e / 2)
    let R := addPt R R
    if e % 2 = 1 then addPt R P else R

/-- Whether (r, s), two 48-byte big-endian integers, is a signature of a 48-byte digest under a public key. -/
def ecdsaVerify (key : Nat × Nat) (digest sig : List Byte) : Bool :=
  let e := natOfBE digest
  let r := natOfBE (sig.take 48)
  let s := natOfBE ((sig.drop 48).take 48)
  if !onCurve key || r = 0 || s = 0 || decide (n384 ≤ r) || decide (n384 ≤ s) then false
  else
    let w := invMod s n384
    match addPt (mulPt (some g384) 384 (e * w % n384)) (mulPt (some key) 384 (r * w % n384)) with
    | some (x, _) => decide (x % n384 = r)
    | none => false

end Sys2Proof.Machine
end

