-- ==== Sys2Proof/Machine/Image.lean ====
section
/-! DEFINITION. The image (chapter 6): header and frame fields, placement, and the loader's checks of a header, of a frame as it
arrives, and of the whole image at its end (R147, R149, R150). -/

namespace Sys2Proof.Machine

/-! ## Header (Table 6.4) -/

/-- The fields of a 256-byte header. -/
def parseHeader (b : List Byte) : Header where
  format := leAt b 0x04 2
  signed := (leAt b 0x06 2).testBit 0
  isPartial := (leAt b 0x06 2).testBit 1
  tuned := leAt b 0x09 1
  vtiles := leAt b 0x0A 2
  l := leAt b 0x0C 2
  target := leAt b 0x0E 1
  dieGroup := leAt b 0x0F 1
  regionMask := leAt b 0x10 4
  frames := leAt b 0x14 4
  buildId := w64 (leAt b 0x20 8)
  keySlot := leAt b 0x28 1
  bytes := b

/-- LENGTH of an image. -/
def Header.len (h : Header) : Nat := 256 + 4160 * h.frames
/-- Whether bytes [a, a+n) hold something else than zeros. -/
def nonZero (b : List Byte) (a n : Nat) : Bool := ((b.drop a).take n).any (· ≠ 0)
/-- HEADER_FIELD: the lowest offset that breaks Table 6.4 or Table 6.5, in a stream or not. -/
def badField (stream : Bool) (b : List Byte) : Option Nat :=
  let h := parseHeader b
  let f3 : Bool := decide (h.format = 3)
  let flags := leAt b 0x06 2
  let sg := h.signed && !f3
  let l : List (Nat × Bool) :=
    [(0x06, if f3 then decide (flags ≠ 0) else decide (4 ≤ flags) || (stream && h.isPartial)),
     (0x09, if f3 then decide (h.tuned ≠ 0) else h.tuned ≠ 1 && h.tuned ≠ 2),
     (0x0A, decide (h.vtiles = 0)),
     (0x0E, f3 && decide (h.target ≠ 0xFF)),
     (0x0F, if f3 then decide (h.dieGroup ≠ 0) else decide (h.dieGroup = 0) || decide (8 < h.dieGroup)),
     (0x14, decide (h.frames = 0)),
     (0x18, decide (leAt b 0x18 8 ≠ h.len)),
     (0x20, f3 && decide (h.buildId ≠ 0)),
     (0x28, if sg then decide (3 < h.keySlot) else decide (h.keySlot ≠ 0)),
     (0x29, nonZero b 0x29 7),
     (0x30, !sg && nonZero b 0x30 48),
     (0x60, !sg && nonZero b 0x60 96),
     (0xC0, nonZero b 0xC0 60)]
  (l.find? (·.2)).map (·.1)

/-- The virtual regions that a mask names, ascending. -/
def maskRegions (m : Nat) : List Nat := bitsOf 32 m
/-- The physical region that holds a virtual region: the one it leaves last (R128). -/
def holderOf (d : Dev) (v : Nat) : Option Nat :=
  let l := (List.range 32).filter fun r => (regionOf d r).placed && decide ((regionOf d r).vregion = v)
  (l.find? fun r => (regionOf d r).moveFrom.isSome).orElse fun _ => l.head?

/-- An explicit map that breaks R128. -/
def badMap (d : Dev) (h : Header) (m : List Nat) : Bool :=
  let named := m.filter (· ≠ 0xFF)
  named.any (fun r => !regionUsable d.fuse r) || decide (named.eraseDups.length ≠ named.length)
    || (maskRegions h.regionMask).any fun v =>
      let p := m.getD v 0xFF
      p = 0xFF || (h.isPartial && (regionOf d p).placed && decide ((regionOf d p).vregion ≠ v))

/-- States in which an image of the kind is accepted (Table 7.2). -/
def imageState (isPartial : Bool) (st : ModState) : Bool :=
  match st with
  | .loaded | .stopped => true
  | .running => isPartial
  | .idle | .faulted => !isPartial
  | _ => false

/-- The header checks in the order of R147: the code and HDR_OFFSET of the first that fails. -/
def headerCheck (d : Dev) (b : List Byte) : Option (Nat × Nat) :=
  let h := parseHeader b
  let stream := d.ld.isStream
  let full := 2 ^ ((h.vtiles + 15) / 16) - 1
  let L := h.l
  let key := tget (0, 0) d.keep.keys h.keySlot
  let l : List (Bool × Nat × Nat) :=
    [(decide (b.take 4 ≠ [0x5A, 0x50, 0x45, 0x49]), 0x0201, 0x00),
     (decide (leAt b 0xFC 4 ≠ crc32c (b.take 0xFC)), 0x0202, 0xFC),
     (h.format ≠ 3 && h.format ≠ 4, 0x0203, 0x04),
     (decide (leAt b 0x08 1 ≠ 0xA4), 0x0204, 0x08),
     ((badField stream b).isSome, 0x0205, (badField stream b).getD 0),
     (!imageState h.isPartial d.run.st, 0x0004, 0),
     (decide (gradeTiles d.fuse < h.vtiles), 0x0206, 0x0A),
     (decide (L % 16 ≠ 0) || decide (L < 16) || decide (1024 < L), 0x0207, 0x0C),
     (!stream && h.target ≠ 0xFF && h.target ≠ d.fuse.modid.toNat, 0x0208, 0x0E),
     (if h.isPartial then decide (h.regionMask = 0) || decide (h.regionMask &&& full ≠ h.regionMask)
       else decide (h.regionMask ≠ full), 0x0209, 0x10),
     (stream && h.format = 3, 0x020A, 0x04),
     (h.isPartial && (decide (h.vtiles ≠ d.image.vtiles) || decide (L ≠ d.image.l)), 0x020B,
       if h.vtiles ≠ d.image.vtiles then 0x0A else 0x0C),
     (d.ld.map.any (badMap d h), 0x020C, 0),
     (!h.signed && d.keep.required, 0x020D, 0x06),
     (h.signed && decide (key = (0, 0)), 0x020E, 0x28),
     (h.signed && !ecdsaVerify key ((b.drop 0x30).take 48) ((b.drop 0x60).take 96), 0x020F, 0x60)]
  (l.find? (·.1)).map (·.2)

/-! ## Placement (R126, R127) -/

/-- What the default placement has given away so far: the free regions of each die, and the die of each group. -/
structure Spread where
  free : List (List Nat)
  dieOf : List (Nat × Nat)
  plan : List (Nat × Nat)
  deriving DecidableEq, Repr

/-- One virtual region of R127. -/
def placeOne (g : Nat) (s : Spread) (r : Nat) : Spread :=
  let freeOf (d : Nat) : List Nat := s.free.getD (d % 4) []
  let home := match s.dieOf.find? fun x => x.1 = r / g with
    | some (_, d) => d
    | none => ((List.range 4).find? fun d => !(freeOf d).isEmpty).getD 0
  let d := ((List.range 4).find? fun i => !(freeOf (home + i)).isEmpty).getD 0
  let die := (home + d) % 4
  match freeOf die with
  | p :: rest =>
    { free := s.free.set die rest, dieOf := s.dieOf ++ [(r / g, home)], plan := s.plan ++ [(r, p)] }
  | [] => s
/-- The default placement of the virtual regions of a mask. -/
def defaultPlan (f : Fuse) (dieGroup mask : Nat) : List (Nat × Nat) :=
  let g := if dieGroup = 0 then (if f.zpe393 then 6 else 8) else dieGroup
  let free := (List.range 4).map fun d => ((List.range 8).map (· + 8 * d)).filter (regionUsable f)
  ((maskRegions mask).foldl (placeOne g) ⟨free, [], []⟩).plan
/-- The placement of an image: virtual region and physical region. -/
def planOf (d : Dev) (h : Header) : List (Nat × Nat) :=
  match d.ld.map with
  | some m => (maskRegions h.regionMask).map fun r => (r, m.getD r 0xFF)
  | none =>
    if h.isPartial then (maskRegions h.regionMask).filterMap fun r => (holderOf d r).map fun p => (r, p)
    else defaultPlan d.fuse h.dieGroup h.regionMask
/-- The physical tile of a virtual tile under the plan of the load. -/
def planTile? (d : Dev) (v : Nat) : Option Nat :=
  match d.ld.plan.find? fun x => x.1 = v / 16 with
  | some (_, r) => (regionTiles d.fuse r)[v % 16]?
  | none => none
/-- The virtual tiles that the load covers, ascending, with their physical tiles. -/
def loadTiles (d : Dev) : List (Nat × Nat) :=
  (List.range d.ld.hdr.vtiles).filterMap fun v => (planTile? d v).map fun p => (v, p)
def stagedOf (d : Dev) (p : Nat) : Tile := tget Tile.reset d.ld.staged p

/-! ## Frames (Table 6.6) -/

/-- The fields of a frame: its 64-byte header and payload. -/
structure Frame where
  seq : Nat
  vtile : Nat
  cluster : Nat
  kind : Nat
  offset : Nat
  len : Nat
  target : Nat
  pcrc : Nat
  bytes : List Byte
  payload : List Byte
  deriving DecidableEq, Repr

def parseFrame (b : List Byte) : Frame where
  seq := leAt b 0x04 4
  vtile := leAt b 0x08 2
  cluster := leAt b 0x0A 1
  kind := leAt b 0x0B 1
  offset := leAt b 0x0C 4
  len := leAt b 0x10 2
  target := leAt b 0x12 1
  pcrc := leAt b 0x14 4
  bytes := b.take 64
  payload := (b.drop 64).take 4096

/-- The size of a store (Table 6.7); 0 for a KIND that does not match CLUSTER. -/
def storeSize (kind cluster : Nat) : Nat :=
  if cluster < 16 then
    (match kind with
      | 1 => 0x10_0000
      | 2 => 0x1_0000
      | 3 => 0x800
      | 4 => 0x1000
      | _ => 0)
  else if cluster = 0xFF then
    (match kind with
      | 4 => 0x1_0000
      | 5 => 0x4000
      | 6 => 0x40_0000
      | 7 => 0x800
      | _ => 0)
  else 0
/-- The store of a frame within its tile. -/
def Frame.key (f : Frame) : Nat := storeKey f.kind (min f.cluster 16)
/-- The key of a store in the record of what is covered. -/
def coverKey (v key : Nat) : Nat := v * 256 + key
def coverOf (d : Dev) (v key : Nat) : Tbl Bool := tget [] d.ld.covered (coverKey v key)
/-- The 16-byte lines of a frame: index within the store and contents. -/
def frameLines (f : Frame) : List (Nat × BitVec 128) :=
  (List.range (f.len / 16)).map fun i => (f.offset / 16 + i, BitVec.ofNat 128 (leAt f.payload (16 * i) 16))

/-- LOAD_DETAIL from CHECK, ROUTER, HDR_OFFSET, VTILE, CLUSTER, BP, ENTRY, INDEX and SCOPE. -/
def detailWord (check router hdr v c b e i scope : Nat) : W64 :=
  word [(52, 4, check), (40, 10, router), (32, 8, hdr), (23, 9, v), (19, 4, c), (13, 6, b), (12, 1, e), (2, 10, i), (0, 2, scope)]

/-- The first of checks 1 to 5 that the container of a step word fails, 0 for none. -/
def instrCheck (l : BitVec 128) : Nat :=
  let p := l.toNat % 2 ^ 80
  if stepEncode (BitVec.ofNat 80 p) ≠ l.setWidth 88 then 1
  else if l.toNat / 2 ^ 88 ≠ 0 then 2
  else stepCheck (stepW p)
/-- The first of checks 1, 2 and 5 that a commit entry fails. -/
def entryCheck (L : Nat) (e : BitVec 32) : Nat :=
  let p := e.toNat % 2 ^ 24
  if (commitEncode (BitVec.ofNat 24 p)).toNat ≠ e.toNat % 2 ^ 30 then 1 else commitCheck L (e.toNat / 2 ^ 30) p
/-- The code of a failed check. -/
def checkCode (check : Nat) : Nat :=
  match check with
  | 1 => 0x022A
  | 5 => 0x022C
  | 6 => 0x0232
  | 8 => 0x0233
  | 9 => 0x0234
  | _ => 0x022B

/-- The first word of a frame that fails checks 1 to 5: code and LOAD_DETAIL. -/
def frameWords (L : Nat) (f : Frame) : Option (Nat × W64) :=
  if f.kind = 1 then
    (frameLines f).findSome? fun (a, l) =>
      if a % 1024 < L ∧ instrCheck l ≠ 0 then
        some (checkCode (instrCheck l), detailWord (instrCheck l) 0 0 f.vtile f.cluster (a / 1024) 0 (a % 1024) 3)
      else none
  else if f.kind = 2 then
    (frameLines f).findSome? fun (a, l) => (List.range 4).findSome? fun j =>
      let k := entryCheck L ((l >>> (32 * j)).setWidth 32)
      if k ≠ 0 then
        some (checkCode k, detailWord k 0 0 f.vtile f.cluster (a / 64) 1 (a % 64 * 4 + j) 3)
      else none
  else none

/-- The checks of an arriving frame (R149), in order: code and LOAD_DETAIL of the first that fails. -/
def frameCheck (d : Dev) (f : Frame) : Option (Nat × W64) :=
  let h := d.ld.hdr
  let b := f.bytes
  let size := storeSize f.kind f.cluster
  let cov := coverOf d f.vtile f.key
  let tail : Bool := f.kind = 4 && decide (f.cluster < 16) &&
    (frameLines f).any fun (i, l) => decide (0x49 ≤ i) && decide (l ≠ 0)
  let l : List (Bool × Nat) :=
    [(decide (b.take 4 ≠ [0x5A, 0x50, 0x45, 0x46]), 0x0220),
     (decide (leAt b 0x3C 4 ≠ crc32c (b.take 0x3C)), 0x0221),
     (decide (f.seq ≠ d.ld.frameSeq), 0x0222),
     (decide (f.target ≠ h.target), 0x0223),
     (decide (h.vtiles ≤ f.vtile) || !h.regionMask.testBit (f.vtile / 16), 0x0224),
     (decide (size = 0), 0x0225),
     (decide (f.offset % 16 ≠ 0) || decide (f.len % 16 ≠ 0) || decide (f.len < 16) || decide (4096 < f.len)
       || decide (size < f.offset + f.len) || nonZero b 0x13 1 || nonZero b 0x18 36, 0x0226),
     ((frameLines f).any fun (i, _) => tget false cov i, 0x0227),
     (decide (f.pcrc ≠ crc32c f.payload), 0x0228),
     (f.payload.drop f.len |>.any (· ≠ 0), 0x0229)]
  match l.find? (·.1) with
  | some (_, code) => some (code, 0)
  | none =>
    match frameWords h.l f with
    | some x => some x
    | none => if tail then some (0x0233, detailWord 0 0 0 f.vtile f.cluster 0 0 0 2) else none

/-- A frame's payload reaches the stores: lines, or bank bytes for BANK_INIT, and its golden signature (R135, R136). -/
def putFrame (p : Nat) (f : Frame) (d : Dev) : Dev :=
  let rec' : FrameRec := ⟨f.kind, min f.cluster 16, f.offset, f.len, f.pcrc, 0⟩
  let put (T : Tile) : Tile :=
    if f.kind = 6 then { T with vtile := f.vtile, mem := mwriteBytes T.mem f.offset (f.payload.take f.len) }
    else { (frameLines f).foldl (fun T (i, l) => T.putLine f.key i l) T with vtile := f.vtile, frames := T.frames ++ [rec'] }
  let cov := (frameLines f).foldl (fun t (i, _) => tset false t i true) (coverOf d f.vtile f.key)
  { d with ld := { d.ld with
      staged := tupd Tile.reset d.ld.staged p put
      covered := tset [] d.ld.covered (coverKey f.vtile f.key) cov
      arrival := if f.kind = 1 then d.ld.arrival ++ [(p, rec')] else d.ld.arrival } }

/-! ## End checks (R150) -/

/-- Whether the first `n` lines from `a` of a store are all covered. -/
def coveredFrom (t : Tbl Bool) (a n : Nat) : Bool := (List.range n).all fun i => tget false t (a + i)
/-- Step 2: the first virtual tile with an uncovered required byte. The code's scope is the model's choice: the cluster of a cluster
store, else the tile (log entry 87). -/
def uncovered (d : Dev) (v : Nat) : Option W64 :=
  let L := d.ld.hdr.l
  let bad (c : Nat) : Bool :=
    !((List.range 64).all fun b => coveredFrom (coverOf d v (storeKey kINSTR c)) (b * 1024) L)
      || !coveredFrom (coverOf d v (storeKey kCOMMIT c)) 0 4096 || !coveredFrom (coverOf d v (storeKey kSTATE c)) 0 128
      || !coveredFrom (coverOf d v (storeKey kBIND c)) 0 256
  match (List.range 16).find? bad with
  | some c => some (detailWord 0 0 0 v c 0 0 0 2)
  | none => if coveredFrom (coverOf d v (storeKey kQSHAPE 16)) 0 1024 then none else some (detailWord 0 0 0 v 0 0 0 0 1)

/-- A row that a step word reads at or after its own step. -/
def lateRow (s a : Nat) : Bool := (decide (a < 0x400) && decide (s ≤ a)) || (decide (0x400 ≤ a) && decide (a < 0x800) && decide (s ≤ a - 0x400))
/-- The contexts that the select field of a cluster can name. -/
def selectable (T : Tile) (c : Nat) : List Nat :=
  (List.range (2 ^ fld (shape T c) 58 56)).map fun v => 32 * c + fld (qbind T c) 4 0 + v
/-- A cluster whose binding R60 accepts, for a PUSH or for a FIRE or WAIT: some context that it can name is configured with a kind
of Table 5.2, each of which accepts a FIRE and responds to one. -/
def bindingOk (T : Tile) (c : Nat) (needCtx : Bool) : Bool :=
  bit (qbind T c) 8 &&
    (!needCtx || (selectable T c).any fun q => decide (q / 32 = c) && (ctxCfg T q).valid && decide ((ctxCfg T q).kind ≤ 5))
/-- The number of TAP_TABLE entries that name a step. -/
def tapEntries (T : Tile) (c b s : Nat) : Nat :=
  ((tapsOf T).filter fun (_, w) => fld w 19 16 = c && fld w 15 10 = b && fld w 9 0 = s).length
/-- The first of checks 6 to 9 that a step word fails. Every word of a combination that R29 refuses fails check 7, so the first of
them to arrive is named (log entry 87). -/
def lateCheckOf (T : Tile) (c b s L : Nat) (w : StepW) : Nat :=
  let step := (clusterSteps T c L).filter fun (_, s', _) => s' = s
  if w.act = 0 then 0
  else if [w.opa, w.opb, w.opc, w.opd].any (lateRow s) then 6
  else if (w.act = 5 || w.act = 6) && decide (1 < (step.filter fun (_, _, x) => x.act = w.act).length) then 7
  else if w.act = 4 && decide (1 < (step.filter fun (_, _, x) => x.act = 4 && x.sel % 128 = w.sel % 128).length) then 7
  else if w.act = 3 && decide ((outEntry T c (w.sel % 64)).1 = 0) then 8
  else if w.act = 4 && !bindingOk T c false then 8
  else if (w.act = 5 || w.act = 6) && !bindingOk T c true then 8
  else if w.act = 2 && decide (tapEntries T c b s = 0) then 9
  else 0
/-- Step 3: the first word in arrival order that fails checks 6 to 9. -/
def lateWord (d : Dev) : Option (Nat × W64) :=
  let L := d.ld.hdr.l
  d.ld.arrival.findSome? fun (p, f) =>
    let T := stagedOf d p
    (List.range (f.len / 16)).findSome? fun i =>
      let a := f.offset / 16 + i
      let k := if a % 1024 < L then
          lateCheckOf T f.cluster (a / 1024) (a % 1024) L (stepW ((instrLine T f.cluster (a / 1024) (a % 1024)).toNat % 2 ^ 80)) else 0
      if k ≠ 0 then some (checkCode k, detailWord k 0 0 T.vtile f.cluster (a / 1024) 0 (a % 1024) 3) else none

/-- The tiles of the resulting image: those the load covers and those it keeps, each where its virtual region will be once the moves are
done, ascending by virtual tile (R141, R128). -/
def wholeImage (d : Dev) : List Tile :=
  let new := (loadTiles d).map fun (v, p) => { stagedOf d p with vtile := v }
  let kept := if d.ld.hdr.isPartial then
      (d.tiles.filter fun (p, T) => T.placed && !d.ld.hdr.regionMask.testBit (T.vtile / 16)
        && holderOf d (T.vtile / 16) = some (tileRegion d.fuse p)).map (·.2) else []
  sortBy (·.vtile) (new ++ kept)
/-- Outbound entries of an image with a KIND on a pin. -/
def pinBound (img : List Tile) (kind pin : Nat) : Nat :=
  (img.map fun T => ((outPorts T).filter fun (_, _, k, n) => k = kind && n = pin).length).sum
/-- Egress entries of an image that assign a link channel number of a lane. -/
def lchSources (img : List Tile) (lane lch : Nat) : Nat :=
  (img.map fun T => ((egressOf T).filter fun (l, n, _) => l = lane && n = lch).length).sum
/-- Whether another inbound port of the image binds the same link channel number with another declared send step. -/
def lchClash (img : List Tile) (w : W64) : Bool :=
  inRemote w && img.any fun T => (inPorts T).any fun (_, _, x) =>
    inRemote x && inLane x = inLane w && inCh x % 65536 = inCh w % 65536 && inSc x ≠ inSc w
/-- Step 4 in a cluster BINDING store. -/
def badBinding (img : List Tile) (T : Tile) (L c : Nat) : Bool :=
  let ss := sends T c L
  ((outPorts T).filter fun (c', _, _, _) => c' = c).any (fun (_, p, k, pin) =>
      decide ((ss.filter fun x => x.1 = p).length ≠ 1)
        || ((k = 2 || k = 3) && decide (1 < pinBound img k pin))
        || (k = 3 && !((outPorts T).any fun (c', _, k', n) => c' = c && k' = 2 && n = pin)))
    || ((inPorts T).filter fun (c', _, _) => c' = c).any fun (_, _, w) => lchClash img w
/-- Step 4 in a tile BINDING store. -/
def badEgress (img : List Tile) (T : Tile) : Bool :=
  (egressOf T).any fun (lane, lch, src) => decide ((outEntry T (src / 64) (src % 64)).1 ≠ 1) || decide (1 < lchSources img lane lch)
/-- The EVAL_TAP steps of a tile: (cluster, BP, step). -/
def tapSteps (T : Tile) (L : Nat) : List (Nat × Nat × Nat) :=
  (List.range 16).flatMap fun c => (clusterSteps T c L).filterMap fun (b, s, w) => if w.act = 2 then some (c, b, s) else none
/-- Step 4 in the TAP_TABLE (R58, R210). -/
def badTaps (T : Tile) (L : Nat) : Bool :=
  let st := tapSteps T L
  decide (256 < st.length) || (storeWords T kTAP 16).any fun (_, w) =>
    !bit w 63 || decide (fld w 60 20 ≠ 0) || decide (L ≤ fld w 9 0) || !st.contains (fld w 19 16, fld w 15 10, fld w 9 0)
      || decide (1 < tapEntries T (fld w 19 16) (fld w 15 10) (fld w 9 0))
/-- Step 4. -/
def lateBinding (d : Dev) : Option (Nat × W64) :=
  let img := wholeImage d
  let L := d.ld.hdr.l
  (loadTiles d).findSome? fun (v, p) =>
    let T := { stagedOf d p with vtile := v }
    match (List.range 16).find? (badBinding img T L) with
    | some c => some (0x0233, detailWord 8 0 0 v c 0 0 0 2)
    | none =>
      if badEgress img T then some (0x0233, detailWord 8 0 0 v 0 0 0 0 1)
      else if badTaps T L then some (0x0234, detailWord 9 0 0 v 0 0 0 0 1) else none

/-- The configured contexts of an image: (virtual tile, context, configuration). -/
def imageCtxs (img : List Tile) : List (Nat × Nat × CtxCfg) :=
  img.flatMap fun T => (ctxsOf T).map fun (q, g) => (T.vtile, q, g)
/-- Two regions that share a byte. -/
def sharesByte (g h : CtxCfg) : Bool :=
  decide (g.base < h.base + h.words * h.wsize) && decide (h.base < g.base + g.words * g.wsize)
/-- A context that breaks R98, R99, R140 or R226 against the contexts of the image. -/
def badCtx (all : List (Nat × Nat × CtxCfg)) (T : Tile) (q : Nat) : Bool :=
  let w (i : Nat) : W64 := storeWord T kQSHAPE 16 (4 * q + i)
  let c := w 0
  if !bit c 19 then c ≠ 0 || w 1 ≠ 0 || w 2 ≠ 0 || w 3 ≠ 0
  else
    let g := ctxCfg T q
    let rest := all.filter fun x => x.1 ≠ T.vtile || x.2.1 ≠ q
    let mem := g.kind = 0 || g.kind = 1
    decide (g.depth = 0) || decide (64 < g.depth) || decide (5 < g.kind)
      || decide (c &&& ~~~0xF_1FC7 ≠ 0) || decide (2 ^ 40 ≤ (w 1).toNat) || decide (2 ^ 38 ≤ (w 2).toNat) || w 3 ≠ 0
      || (mem && (decide (g.words = 0) || decide (g.base % g.wsize ≠ 0)))
      || (g.kind = 0 && decide (0x40_0000 < g.base + g.words * g.wsize))
      || (mem && rest.any fun (v, _, h) => h.kind = g.kind && (g.kind = 1 || v = T.vtile) && (g.writable || h.writable) && sharesByte g h)
      || (!mem && (decide (g.words ≠ 0) || decide (g.wsize ≠ 1) || g.writable))
      || ((g.kind = 2 || g.kind = 3) && (decide (4095 < g.base) || rest.any fun (_, _, h) => h.kind = g.kind && h.base = g.base))
      || (g.kind = 3 && !rest.any fun (_, _, h) => h.kind = 2 && h.base = g.base)
      || ((g.kind = 4 || g.kind = 5) && decide (g.base ≠ 0))

/-- The fields of a port-shape descriptor: (position, width, widest). -/
def shapeFields (p : W64) : List (Nat × Nat × Nat) :=
  [(fld p 6 0, fld p 8 7, 2), (fld p 17 11, fld p 23 18, 40), (fld p 30 24, fld p 37 31, 64), (fld p 44 38, fld p 48 45, 8),
   (fld p 55 49, fld p 58 56, 5)]
/-- Whether two of the fields share an assembler bit. -/
def fieldsClash : List (Nat × Nat × Nat) → Bool
  | [] => false
  | (a, n, _) :: r => (decide (n ≠ 0) && r.any fun (b, m, _) => decide (m ≠ 0) && decide (a < b + m) && decide (b < a + n)) || fieldsClash r
/-- A bound cluster whose descriptor and binding break R101. -/
def badShape (T : Tile) (c : Nat) : Bool :=
  let p := shape T c
  let l := shapeFields p
  bit (qbind T c) 8 &&
    (l.any (fun (a, n, m) => decide (n ≠ 0) && (decide (128 < a + n) || decide (m < n))) || fieldsClash l || decide (fld p 63 59 ≠ 0)
      || decide (31 < fld (qbind T c) 4 0 + 2 ^ fld p 58 56 - 1)
      || (selectable T c).any fun q =>
        let g := ctxCfg T q
        !g.valid || ((g.kind = 0 || g.kind = 1) && (decide (8 * g.wsize < fld p 37 31) || decide (g.wsize < fld p 48 45)))
          || (g.kind = 4 && decide (32 < fld p 37 31)))
/-- Step 5: the first virtual tile of the image with a queue-shape error; its scope is always the tile, the model's choice (log entry 87). -/
def lateQueues (d : Dev) : Option (Nat × W64) :=
  let img := wholeImage d
  let all := imageCtxs img
  (img.find? fun T => (List.range 512).any (badCtx all T) || (List.range 16).any (badShape T)).map fun T =>
    (0x0235, detailWord 0 0 0 T.vtile 0 0 0 0 1)

/-! ## Completion (R151) -/

/-- A tile as its completed load leaves it (R23, R106, R121). -/
def loadedTile (v : Nat) (p : Nat) (moving : Bool) (d : Dev) : Tile :=
  let old := tileOf d p
  let N := stagedOf d p
  let T := freshTile { N with
    vtile := v, placed := true, moving := moving, ldiv := d.ld.hdr.l / 16 - 1
    frames := N.frames.map fun f => { f with clean := d.run.committed } }
  { T with banks := (List.range 16).foldl (fun t b =>
      let o := if (mappedBanks T).contains b then Owner.fabric else Owner.host
      tset Bank.reset t b ⟨o, o, false, false⟩) []
           routes := old.routes, markRoutes := old.markRoutes }
/-- The module with the loaded tiles in place; those of a moving region wait. -/
def placeLoaded (moving : Nat → Bool) (d : Dev) : Dev :=
  (loadTiles d).foldl (fun d (v, p) =>
    let T := loadedTile v p (moving (v / 16)) d
    updTile d p fun _ => T) d
/-- Step 6: the resulting routes against Table 4.2, with the L of the image. The placement is judged as it will be once the moves are
done (R128). -/
def lateRoutes (d : Dev) : Option (Nat × W64) :=
  let stays (v q : Nat) : Bool := match d.ld.plan.find? fun x => x.1 = v with
    | some x => x.2 = q
    | none => holderOf d v = some q
  let left := (List.range 32).filter fun q =>
    (regionOf d q).placed && !(d.ld.plan.any fun x => x.2 = q) && !stays (regionOf d q).vregion q
  let d := left.foldl (fun d q => leaveRegion q d) (placeLoaded (fun _ => false) d)
  let d := { d with image := { d.image with l := d.ld.hdr.l }, tiles := d.tiles.map fun (p, T) => (p, { T with moving := false }) }
  let egress := ((placedTiles d).map fun (_, T) => (egressOf T).length).sum
  let ingress := ((allInPorts d).filterMap fun (_, _, _, w) =>
    if inRemote w then some (inLane w * 65536 + inCh w % 65536) else none).eraseDups.length
  match overRouter d with
  | some p => some (0x0236, detailWord 0 p 0 0 0 0 0 0 0)
  | none => if 262144 < egress ∨ 262144 < ingress then some (0x0236, 0) else none

/-- The end checks: the code and LOAD_DETAIL of the first that fails. -/
def endCheck (d : Dev) : Option (Nat × W64) :=
  let h := d.ld.hdr
  let digest : Option (Nat × W64) :=
    if h.signed && decide (sha384 d.ld.manifest ≠ (h.bytes.drop 0x30).take 48) then some (0x0230, 0) else none
  let cover : Option (Nat × W64) := (loadTiles d).findSome? fun (v, _) => (uncovered d v).map fun x => (0x0231, x)
  [fun _ => digest, fun _ => cover, lateWord, lateBinding, lateQueues, lateRoutes].findSome? fun f => f d

end Sys2Proof.Machine
end

