-- ==== Sys2Proof/Machine/Loading.lean ====
section
/-! DEFINITION. Loading and stream load (chapter 7): commands, the intake, accepting a header, frames, completion, refusals,
aborts, timeouts, the stream; and Mordant. -/

namespace Sys2Proof.Machine

/-! ## LOAD_STATUS and the end of a load -/



def pathOf (L : Loader) : Nat := pathCode L.isStream L.seat
/-- STREAM_STATUS. -/
def streamStatus (L : Loader) : W64 :=
  word [(48, 16, L.strResult), (32, 8, L.strImages), fb 2 L.strTerm, fb 1 L.strKept, fb 0 L.strActive]

/-- The load's job is over; its registers stay. -/
def endJob (L : Loader) : Loader :=
  { L with phase := .none, map := none, plan := [], intake := [], arrived := 0, manifest := [], covered := [], arrival := []
           staged := [], aborting := false, strKeeping := false, routing := false }
/-- The load ends: its response, or the outcome in STREAM_STATUS and in the log, which a stream's failures enter as they come (R303, R160,
R311). What PHASE shows once no load is under way is open (log
entry 43). -/
def finishLoad (code : Nat) (data : List W64) (d : Dev) : Dev :=
  let stream := d.ld.isStream
  let (w, d) := takeFreeWord d
  let d := updLd (fun L => { endJob L with phaseShown := fld w 1 0 }) d
  if !stream then endLong code data d
  else
    let d := if !d.ld.strActive && decide (d.ld.strResult = 0x0240) then d
      else updLd (fun L => { L with strResult := code }) d
    let d := if code = 0 then d else logEntry code none d
    if d.host.longKind = 2 ∧ !d.ld.strActive then endLongBy putResponse d.ld.strResult [streamStatus d.ld] d else d

/-- The regions of a failed load (Table 7.3). -/
def tearTouched (code : Nat) (d : Dev) : Dev :=
  let isPartial := d.ld.hdr.isPartial
  let d := (List.range 32).foldl (fun d r =>
    if (regionOf d r).st = .reloading then tearRegion code r none d
    else if isPartial then updRegion d r fun R => { R with isolatePend := false } else d) d
  if !isPartial then enterState .idle d
  else if !(regionsIn d .torn).isEmpty && decide (d.run.st = .running) then registerStop cREGION_TORN d
  else d
/-- The length of the image that is arriving, once its header has: LENGTH, and the header at least. -/
def imageLen? (L : Loader) (b : List Byte) : Option Nat :=
  match L.phase with
  | .none | .header =>
    let h := (L.intake ++ b).take 256
    if h.length < 256 then none else some (max 256 (leAt h 0x18 8))
  | _ => some L.hdr.len
/-- Fewer than LENGTH bytes of the image have arrived (R152). -/
def incomplete (L : Loader) : Bool := !(imageLen? L []).any fun n => decide (n ≤ L.arrived)
/-- A refused, aborted or timed-out load (R154). -/
def refuseLoad (code : Nat) (detail : W64) (d : Dev) : Dev :=
  let d := updLd (fun L => { L with reason := code, refused := true, done := false, detail := detail, path := pathOf L
                                    strCut := L.isStream && incomplete L }) d
  let d := match d.ld.phase with
    | .waiting | .frames | .checks => tearTouched code d
    | _ => d
  finishLoad code [detail] (pulse 0x012 d)


/-! ## Commands -/

/-- The states in which LOAD and STREAM_LOAD are accepted (R146). -/
def loadState (st : ModState) : Bool :=
  match st with
  | .idle | .loaded | .stopped | .running | .faulted => true
  | _ => false
/-- A load command starts, with the bytes that came ahead of it, or is refused by its first failing check, and they are discarded; while the load of a stream goes on, it is refused (R146). -/
def beginLoad (kind : Nat) (c : Cmd) (bad : Bool) (map : Option (List Nat)) (d : Dev) : Dev :=
  let b := d.ld.ahead
  let d := updLd (fun L => { L with ahead := [] }) (startLong kind c d)
  let stream := decide (kind = 2)
  if bad then refuseLoadCmd stream c.seat 0x0003 d
  else if d.ld.phase ≠ .none || !loadState d.run.st || jtagTest d then refuseLoadCmd stream c.seat 0x0004 d
  else if d.clk.stage < 4 then refuseLoadCmd stream c.seat 0x0904 d
  else updLd (fun L => { L with
    isStream := stream, seat := c.seat, phase := .header, phaseShown := 1, map := map, intake := b, arrived := b.length }) d
/-- LOAD (R303): MAP = 1 gives an explicit map in words 2 to 5. -/
def loadCmd (c : Cmd) (d : Dev) : Dev :=
  let mapped := bit (c.par 1) 0 && decide (c.params ≠ [])
  let map := if mapped then some (((c.params.drop 1).flatMap fun w => bytesOf 8 w.toNat).map (·.toNat)) else none
  beginLoad 1 c (mapped && decide (c.length = 8)) map d

/-! ## Streams (R158 to R160) -/

/-- Lanes 8–15 forward the stream: an 8-lane STREAM link that is UP. -/
def forwards (d : Dev) : Bool :=
  d.ld.forward && cfgOn (linkCfg d 8) && decide (cfgMode (linkCfg d 8) = 1) && decide (cfgWidth (linkCfg d 8) = 3)
    && decide (linkState d 8 = 3)
/-- Stream bytes go out on lanes 8–15, 8 to a block. -/
def forwardBytes (b : List Byte) (d : Dev) : Dev :=
  if !forwards d then updLd (fun L => { L with strOut := [] }) d
  else
    let all := d.ld.strOut ++ b
    let n := all.length / 8 * 8
    updLink (updLd (fun L => { L with strOut := all.drop n }) d) 8 fun E => { E with egress := E.egress ++ wordsOf (all.take n) }

/-- What becomes of an image whose header has arrived: kept, refused as a second one, or passed on, as while a LOAD lasts, which begins
with its acceptance (R146, R300; log entry 85). -/
def judgeImage (b : List Byte) (d : Dev) : Dev :=
  let target := leAt b 0x0E 1
  let d := updLd (fun L => { L with strImages := L.strImages + 1, strSkip := max 256 (leAt b 0x18 8), strKeeping := false }) d
  if !d.ld.accept || (target ≠ 0xFF && target ≠ d.fuse.modid.toNat) then d
  else if d.ld.strKept then
    logEntry 0x0242 none (pulse 0x012 (updLd (fun L => { L with strResult := 0x0242 }) d))
  else if imageState false d.run.st && decide (d.host.longKind ≠ 1) && (decide (d.ld.phase = .none) || (decide (d.ld.phase = .header) && d.ld.isStream)) then
    updLd (fun L => { L with strKept := true, strKeeping := true, phase := .header, phaseShown := 1, isStream := true
                             seat := d.host.longSeat, map := none, intake := [], arrived := 0, strCut := false }) d
  else logEntry 0x0004 none (updLd (fun L => { L with strResult := 0x0004 }) d)

/-- Buffered stream bytes are told apart: the rest of the passing image, a terminator, the next header. Each round consumes
bytes or judges a header. -/
def pump : Nat → Dev → Dev
  | 0, d => d
  | n + 1, d =>
    let L := d.ld
    if L.strSkip ≠ 0 then
      let got := L.strBuf.take L.strSkip
      if got = [] then d
      else pump n (updLd (fun L => { L with
        strBuf := L.strBuf.drop L.strSkip, strSkip := L.strSkip - got.length
        intake := if L.strKeeping then L.intake ++ got else L.intake
        arrived := if L.strKeeping then L.arrived + got.length else L.arrived }) d)
    else if L.strBuf.length < 256 || L.strBuf.take 4 = [0x5A, 0x50, 0x45, 0x5A] then d
    else pump n (judgeImage L.strBuf d)

/-- Stream bytes arrive. -/
def streamIn (b : List Byte) (d : Dev) : Dev :=
  let d := if d.ld.strActive then d
    else updLd (fun L => { L with strActive := true, strKept := false, strTerm := false, strImages := 0, strResult := 0 }) d
  let d := updLd (fun L => { L with strBytes := L.strBytes + w64 b.length, strBuf := L.strBuf ++ b }) (forwardBytes b d)
  pump (2 * d.ld.strBuf.length + 1) d

/-- STREAM_LOAD: the bytes that came before its turn are the stream's first. -/
def streamLoadCmd (c : Cmd) (d : Dev) : Dev :=
  let d := beginLoad 2 c false none d
  if d.host.longCmd.isNone then d
  else
    let b := d.ld.intake
    streamIn b (updLd (fun L => { L with intake := [], arrived := 0, strActive := false, strKept := false, strBuf := [], strSkip := 0 }) d)

/-- STREAM_DATA_RX: the bytes that lanes 0–7 have received, as one 8-lane STREAM link (R159). -/
def streamRx (d : Dev) : Dev :=
  let c := linkCfg d 0
  let ws := (linkOf d 0).rx
  if !(cfgOn c && cfgMode c = 1 && cfgWidth c = 3) || ws.isEmpty || decide (d.host.longKind = 2) then d
  else
    let d := updLink d 0 fun E => { E with rx := [], freed := E.freed + ws.length }
    let d := if longOp d then d else { d with host := { d.host with longKind := 3, longSeat := .manager, longCmd := none } }
    streamIn (bytesOfWords ws) (updLd (fun L => { L with strLanes := true }) d)

/-- The stream has passed: the busy rule ends for one received on lanes; a STREAM_LOAD without a load under way completes. -/
def endStream (d : Dev) : Dev :=
  let d := updLd (fun L => { L with strActive := false, strLanes := false, strSkip := 0 }) d
  if d.host.longKind = 3 then { d with host := { d.host with longKind := 0 } }
  else if d.host.longKind = 2 ∧ (d.ld.phase = .none ∨ (d.ld.phase = .header ∧ !d.ld.strKept)) then
    let (w, d) := takeFreeWord d
    endLongBy putResponse d.ld.strResult [streamStatus d.ld] (updLd (fun L => { endJob L with phaseShown := fld w 1 0 }) d)
  else d
/-- STREAM_TERMINATOR. -/
def streamEnd (d : Dev) : Dev :=
  let b := d.ld.strBuf.take 16
  if !d.ld.strActive || d.ld.strSkip ≠ 0 || b.length < 16 || b.take 4 ≠ [0x5A, 0x50, 0x45, 0x5A] then d
  else
    let good := leAt b 12 4 = crc32c (b.take 12) && leAt b 4 4 = d.ld.strImages
    let d := if !good then logEntry 0x0240 none d else if !d.ld.strKept then logEntry 0x0241 none d else d
    endStream (updLd (fun L => { L with
      strBuf := L.strBuf.drop 16, strTerm := good
      strResult := if !good then 0x0240 else if !L.strKept then 0x0241 else L.strResult }) d)

/-! ## The intake (R295) -/

/-- A seat with no session, or the port that its session is bound to (R293). -/
def rightPort (d : Dev) (seat : Seat) (port : Port) : Bool :=
  if seat = .board then port = .psp
  else port ≠ .psp && (!(seatOf d.host seat).session || (seatOf d.host seat).port = port)
/-- How many of the bytes belong to an image of a known length of which `have_` have come. -/
def imageRoom (len : Option Nat) (have_ n : Nat) : Nat := min n ((len.map (· - have_)).getD n)
/-- Image bytes arrive; those beyond the image's end are discarded with an access-error response (R152). -/
def imageIn (b : List Byte) (d : Dev) : Dev :=
  let room := imageRoom (imageLen? d.ld b) d.ld.arrived b.length
  answer (b2n (decide (room < b.length))) 0 (updLd (fun L => { L with intake := L.intake ++ b.take room, arrived := L.arrived + room }) d)
/-- Bytes of a LOAD or a STREAM_LOAD that Fovia has not yet begun wait apart from a load that is still under way (log entry 85). -/
def bytesAhead (stream : Bool) (b : List Byte) (d : Dev) : Dev :=
  let h := (d.ld.ahead ++ b).take 256
  let room := if stream || decide (h.length < 256) then b.length
    else imageRoom (some (max 256 (leAt h 0x18 8))) d.ld.ahead.length b.length
  answer (b2n (decide (room < b.length))) 0 (updLd (fun L => { L with ahead := L.ahead ++ b.take room }) d)
/-- An intake write. -/
def intake (seat : Seat) (port : Port) (b : List Byte) (d : Dev) : Dev :=
  if d.run.st = .boot || d.clk.pw = 4 || !nocOn d.clk then d
  else if !rightPort d seat port then refuseSeat seat d
  else
    let d := takeUp seat d
    if d.host.longSeat ≠ seat then refuseSeat seat d
    else if d.host.longKind ≠ 1 ∧ d.host.longKind ≠ 2 then refuseSeat seat d
    else if d.host.longCmd.isNone then bytesAhead (decide (d.host.longKind = 2)) b d
    else if d.host.longKind = 1 then imageIn b d
    else answer 0 0 (streamIn b d)

/-! ## A header is judged (R147, R148) -/

/-- The previous image is discarded. -/
def discardImage (d : Dev) : Dev :=
  let d := (List.range 32).foldl (fun d r => updRegion (leaveActive .isolated r d) r fun R =>
    { Region.reset with held := R.held }) d
  let d := basketClear (emptyTrail (dropSession (pinsOff d)))
  { d with
    tiles := (d.tiles.map fun (p, T) => (p, vacate T)).filter fun (_, T) => T ≠ Tile.reset
    exch := { d.exch with mesh := [], refresh := [], refreshLink := [], shadow := [], sent := [], sentOld := [] }
    links := (d.links.map fun (l, E) => (l, { E with horizons := [], markH := none, linkH := 0, eocIn := false, eocSent := false })).filter
      fun (_, E) => E ≠ Link.reset
    mordant := { d.mordant with rewrites := [] }
    cap := { d.cap with nets := 0 }
    trail := { d.trail with moved := 0, skipped := 0, forced := 0, rescinded := 0, rewindBytes := 0, repairPending := false
                            composing := [], reload := [] }
    run := { d.run with committed := 0, progress := 0, set := 0, reason := 0, cause := 0, midCycle := false, fullNext := false
                        fullPass := false, draining := false } }

/-- The header is accepted. -/
def acceptHeader (h : Header) (d : Dev) : Dev :=
  let d := updLd (fun L => { clearStatus L with
    hdr := h, path := pathOf L, statusPartial := h.isPartial, statusSigned := h.signed, phaseShown := 2, expected := h.frames
    frameSeq := 0, intake := (L.intake.drop 256).take (h.len - 256), arrived := min L.arrived h.len
    manifest := if h.signed then h.bytes.take 0x30 else [], phase := .frames, plan := planOf d h }) d
  if !h.isPartial then enterState .loading (discardImage d)
  else
    let named := d.ld.plan.map (·.2)
    if d.run.st = .running then
      updLd (fun L => { L with phase := .waiting })
        (named.foldl (fun d r => updRegion d r fun R => { R with isolatePend := true }) d)
    else named.foldl (fun d r => isolateRegion r d) d

/-- IMAGE_HEADER. -/
def judgeHeader (d : Dev) : Dev :=
  let b := d.ld.intake.take 256
  if d.ld.phase ≠ .header ∨ b.length < 256 then d
  else match headerCheck d b with
    | some (code, off) => refuseLoad code (detailWord 0 0 off 0 0 0 0 0 0) d
    | none => acceptHeader (parseHeader b) d

/-! ## Frames (R149) -/

/-- IMAGE_FRAME. -/
def takeFrame (d : Dev) : Dev :=
  let b := d.ld.intake.take 4160
  if d.ld.phase ≠ .frames ∨ b.length < 4160 then d
  else
    let f := parseFrame b
    let d := updLd (fun L => { L with intake := L.intake.drop 4160, manifest := if L.hdr.signed then L.manifest ++ b else [] }) d
    match frameCheck d f with
    | some (code, detail) => refuseLoad code detail d
    | none =>
      match planTile? d f.vtile with
      | none => d
      | some p =>
        let d := updRegion d (tileRegion d.fuse p) fun R => { R with st := .reloading }
        let d := updLd (fun L => { L with frameSeq := L.frameSeq + 1, framesDone := L.frameSeq + 1 }) (putFrame p f d)
        if d.ld.aborting then refuseLoad 0x0005 0 d
        else if d.ld.frameSeq = d.ld.hdr.frames then updLd (fun L => { L with phase := .checks, phaseShown := 3 }) d
        else d

/-! ## Completion (R151) -/

/-- The taps of a loaded tile (R210). -/
def loadTaps (d : Dev) (p : Nat) : Dev :=
  let T := tileOf d p
  let w (field j : Nat) : W64 := (tapsOf T).foldl (fun w (e, x) => if e / 64 = j then setBit w (e % 64) (bit x field) else w) 0
  (List.range 4).foldl (fun d j => { d with cap := { d.cap with
    tapEn := tset 0 d.cap.tapEn (T.vtile * 4 + j) (w 61 j)
    tapFold := tset 0 d.cap.tapFold (T.vtile * 4 + j) (w 62 j) } }) d
/-- Delivered items of the ports that a loaded tile serves return to their queues (R239). -/
def loadPorts (d : Dev) (p : Nat) : Dev :=
  (((ctxsOf (tileOf d p)).filterMap fun (_, g) => if g.kind = 2 || g.kind = 3 then some (g.base % 4096) else none).eraseDups).foldl
    (fun d port => basketReturn port d) d
/-- Counters of a link that a full load resets (R91). -/
def resetExchCounters (E : Link) : Link :=
  { E with tokensTx := 0, tokensRx := 0, marksTx := 0, marksRx := 0, eocCycle := 0, mismatch := 0, unrouted := 0, earlyPeak := 0 }
/-- A full load completes. -/
def completeFull (d : Dev) : Dev :=
  let h := d.ld.hdr
  let d := placeLoaded (fun _ => false) d
  let d := d.ld.plan.foldl (fun d (v, r) => updRegion d r fun R =>
    { R with st := .active, placed := true, vregion := v, buildId := h.buildId, since := 0 }) d
  enterState .loaded { d with
    image := h
    exch := Exch.reset
    links := (d.links.map fun (l, E) => (l, resetExchCounters E)).filter fun (_, E) => E ≠ Link.reset
    mem := { d.mem with hbmRefused := 0, hostWrites := 0 } }
/-- A region that a repair reload names qualifies (R198). -/
def repairs (d : Dev) (v r : Nat) : Bool :=
  let R := regionOf d r
  trailOn d && !d.trail.empty && R.placed && R.vregion = v && decide (R.since ≤ d.trail.head) && R.buildId = d.ld.hdr.buildId
/-- A partial load completes. A virtual region that another region holds as well moves to the region just loaded; an earlier move of it
that is still to come is given up (R128). -/
def completePartial (d : Dev) : Dev :=
  let h := d.ld.hdr
  let running := decide (d.run.st = .running)
  let plan := d.ld.plan
  let from_ (v r : Nat) : Option Nat :=
    (List.range 32).find? fun q => q ≠ r && (regionOf d q).placed && decide ((regionOf d q).vregion = v)
  let moves := plan.filter fun (v, r) => (from_ v r).isSome
  let repair := !running && plan.all fun (v, r) => repairs d v r
  let since := d.run.committed + 1
  let d := plan.foldl (fun d' (v, r) => (List.range 32).foldl (fun d q =>
    if q ≠ r && (regionOf d q).placed && decide ((regionOf d q).vregion = v) then updRegion d q fun R => { R with moveFrom := none }
    else d) (updRegion d' r fun R =>
    { R with st := .isolated, rejoin := true, placed := true, vregion := v, buildId := h.buildId, repair := repair
             moveFrom := from_ v r, since := if repair then R.since else since })) (placeLoaded (fun v => moves.any (·.1 = v)) d)
  let d := if running then d else moves.foldl (fun d (_, r) => completeMove r d) d
  { d with trail := { d.trail with repairPending := (List.range 32).any fun r => (regionOf d r).repair } }
/-- The response data of a LOAD (R303). -/
def loadData (d : Dev) : List W64 :=
  let h := d.ld.hdr
  let ts := (List.range h.vtiles).map fun v => ((planTile? d v).orElse fun _ => tileOfV? d v).getD 0
  [h.buildId, word [(0, 8, if h.format = 3 then 1 else h.tuned), (16, 10, h.vtiles)]] ++ wordsOf (ts.flatMap fun p => bytesOf 2 p)
/-- The load completes: routes, taps, ports, the response. -/
def completeLoad (d : Dev) : Dev :=
  let d := if d.ld.hdr.isPartial then completePartial d else completeFull d
  let ps := (loadTiles d).map (·.2)
  let d := writeRoutes (ps.foldl (fun d p => loadPorts (loadTaps d p) p) d)
  let data := loadData d
  finishLoad 0 data (updLd (fun L => { L with done := true, refused := false, buildId := L.hdr.buildId }) d)
/-- Time passes while the end checks run: once they pass, the loader writes route entries, and an ABORT comes too late (R153). -/
def checksPass (d : Dev) : Dev :=
  if d.ld.phase = .checks && !d.ld.routing && (endCheck d).isNone then updLd (fun L => { L with routing := true }) d else d
/-- LOAD_END_CHECKS. -/
def endChecks (d : Dev) : Dev :=
  if d.ld.phase ≠ .checks then d
  else match endCheck d with
    | some (code, detail) => refuseLoad code detail d
    | none => completeLoad d

/-! ## Timeout and ABORT (R152, R153, R205, R301) -/

/-- LOAD_TIMEOUT. -/
def loadTimeout (d : Dev) : Dev :=
  let late := (d.ld.phase = .header ∨ d.ld.phase = .frames) ∧ incomplete d.ld
  if late then
    let d := refuseLoad 0x0240 0 (if d.ld.isStream then updLd (fun L => { L with strActive := false, strResult := 0x0240, strBuf := [] }) d else d)
    if d.ld.isStream then endStream d else d
  else if d.ld.phase = .none ∧ d.ld.strActive ∧ (!d.ld.strKept || d.ld.strCut) then
    endStream (logEntry 0x0240 none (updLd (fun L => { L with strResult := 0x0240, strBuf := [] }) d))
  else d

/-- A long command that Fovia has not begun is answered ABORTED; a DUMP has written no byte (R304). -/
def cancelQueued (seat : Seat) (d : Dev) : Dev :=
  match d.host.order.find? (fun c => c.seat = seat ∧ c.refused = 0 ∧ (c.opcode = 0x0201 ∨ c.opcode = 0x0202 ∨ c.opcode = 0x0401 ∨ c.opcode = 0x0310)) with
  | none => d
  | some c =>
    let d := { d with host := { d.host with order := d.host.order.erase c, longCmd := some c } }
    if d.host.longKind ≤ 2 then refuseLoadCmd (decide (c.opcode = 0x0202)) seat 0x0005 d
    else endLong 0x0005 (if d.host.longKind = 5 then [0, w64 d.run.committed] else []) d
/-- An ABORT of a load. -/
def abortLoad (d : Dev) : Dev :=
  let end_ (d : Dev) : Dev :=
    refuseLoad 0x0005 0 (if d.host.longKind = 2 then updLd (fun L => { L with strActive := false, strBuf := [], strSkip := 0 }) d else d)
  match d.ld.phase with
  | .header | .waiting => end_ d
  | .checks => if d.ld.routing then updLd (fun L => { L with abortLate := true }) d else end_ d
  | .frames => if d.ld.intake = [] then end_ d else updLd (fun L => { L with aborting := true }) d
  | .none => if d.host.longKind = 2 then
      endLong 0x0005 [] (updLd (fun L => { L with strActive := false, strResult := 0x0005, strBuf := [], strSkip := 0 }) d) else d
/-- A write of 1 to the ABORT register. -/
def abortWrite (seat : Seat) (port : Port) (d : Dev) : Dev :=
  if d.run.st = .boot || d.clk.pw = 4 then d
  else if !rightPort d seat port then refuseSeat seat d
  else
    let d := takeUp seat d
    if !longOp d then d
    else if d.host.longSeat ≠ seat then refuseSeat seat d
    else if d.host.longCmd.isNone && d.host.longKind ≠ 3 then cancelQueued seat d
    else match d.host.longKind with
      | 4 =>
        if d.trail.banksTaken then { d with trail := { d.trail with abortLate := true } }
        else
          let d := { d with trail := { d.trail with rewinding := false } }
          endLong 0x0005 [] (if d.run.st = .rewinding then enterState .stopped d else d)
      | 5 => { d with host := { d.host with dumpAbort := true } }
      | _ => abortLoad d

/-! ## Mordant (R162 to R165) -/

/-- What a word's stored form becomes by SECDED: `none` for an uncorrectable word, and whether it changed. -/
def scrubWord (n k : Nat) (w : Nat) : Option (Nat × Bool) :=
  match secFetch n k w with
  | .ok _ => some (w, false)
  | .fixed p => some (secEncode n k p, true)
  | .bad => none
/-- A line of a store after its words' correction: the line, how many words changed, whether one is uncorrectable. -/
def scrubLine (kind : Nat) (l : BitVec 128) : BitVec 128 × Nat × Bool :=
  let words : List (Nat × Nat × Nat × Nat) := if kind = 1 then [(0, 88, 80, 7)]
    else if kind = 2 then (List.range 4).map fun j => (32 * j, 30, 24, 5) else []
  words.foldl (fun (l, n, bad) (pos, len, dat, syn) =>
    let v := l.toNat / 2 ^ pos % 2 ^ len
    match scrubWord dat syn v with
    | none => (l, n, true)
    | some (x, fixed) => if fixed then (l ^^^ (BitVec.ofNat 128 (v ^^^ x) <<< pos), n + 1, bad) else (l, n, bad)) (l, 0, false)
/-- A failing frame (R164, R165): 1 an uncorrectable word, 2 a signature mismatch. The failed check is in the diagnostic log
with the frame and its cycle (R311), whatever the region's state. -/
def failFrame (p : Nat) (f : FrameRec) (cause : Nat) (d : Dev) : Dev :=
  let T := tileOf d p
  let r := tileRegion d.fuse p
  let code := if cause = 1 then 0x0250 else 0x0251
  let d := { d with mordant := { d.mordant with failed := d.mordant.failed + 1 } }
  let place := word [(56, 8, f.kind), (32, 18, f.offset / 16), (23, 9, T.vtile), (19, 4, f.cluster % 16), fb 18 (decide (f.cluster = 16)),
    (16, 2, cause)]
  let d := if d.mordant.fail then d
    else { d with mordant := { d.mordant with fail := true, failCycle := d.run.committed, cleanCycle := f.clean, failPlace := place } }
  let d := logEntry code (some (place, w64 d.run.committed)) d
  let R := regionOf d r
  let underWay := (d.run.st = .running && !held d) || (d.run.st = .stopping && !d.run.draining) || d.run.st = .releasing
  if R.isolatePend || R.tornPend || R.st = .torn then d
  else if underWay then
    registerStop cREGION_TORN (updRegion d r fun R => { R with tornPend := true, tornReason := code })
  else
    let d := updRegion (tearRegion code r (some (place, w64 d.run.committed)) d) r fun R => { R with rejoin := false }
    if d.run.st = .running then registerStop cREGION_TORN d else d
/-- Mordant checks one stored frame of a tile. -/
def checkFrame (p : Nat) (d : Dev) (i : Nat) : Dev :=
  match (tileOf d p).frames[i]? with
  | none => d
  | some f =>
    let key := storeKey f.kind f.cluster
    let (d, bad) := (List.range (f.len / 16)).foldl (fun (d, bad) j =>
      let a := f.offset / 16 + j
      let (l, n, b) := scrubLine f.kind (lineOf (tileOf d p) f.kind f.cluster a)
      (if n = 0 then d
        else
          let d := updTile d p fun T => T.putLine key a l
          { d with mordant := { d.mordant with
              corrected := d.mordant.corrected + w64 n
              rewrites := d.mordant.rewrites.filter fun x => x.1 ≠ p || x.2.1 ≠ key || x.2.2.1 ≠ a } }, bad || b)) (d, false)
    let bytes := (List.range (f.len / 16)).flatMap fun j => bytesOf 16 (lineOf (tileOf d p) f.kind f.cluster (f.offset / 16 + j)).toNat
    if bad then failFrame p f 1 d
    else if crc32c (bytes ++ List.replicate (4096 - f.len) 0) ≠ f.pcrc then failFrame p f 2 d
    else updTile d p fun T => { T with frames := T.frames.set i { f with clean := d.run.committed } }
/-- MORDANT_FRAME_CHECK: the share of the position being swept. A region that a failing frame tears is skipped from the next share on:
the rest of this one is still checked (log entry 87). -/
def mordantShare (d : Dev) : Dev :=
  if d.run.st = .boot || !nocOn d.clk then d
  else
    let p := d.mordant.tile
    let R := regionOf d (tileRegion d.fuse p)
    let T := tileOf d p
    let d := if T.placed && T.loaded && (R.st = .active || (R.st = .isolated && R.placed)) then
        (List.range T.frames.length).foldl (checkFrame p) d else d
    { d with mordant := { d.mordant with tile := (p + 1) % 528
                                         sweeps := if p = 527 then (d.mordant.sweeps + 1) % 2 ^ 32 else d.mordant.sweeps } }
/-- MORDANT_REWRITE: the oldest pending rewrite of a die. -/
def mordantRewrite (die : Nat) (d : Dev) : Dev :=
  if d.run.st = .boot || !nocOn d.clk then d
  else match d.mordant.rewrites.find? fun x => x.1 / 132 = die with
    | none => d
    | some (p, key, a, part) =>
      let kind := key / 17
      let l := tget 0 (tget [] (tileOf d p).stores key) a
      let (pos, len, dat, syn) := if kind = 1 then (0, 88, 80, 7) else (32 * part, 30, 24, 5)
      let v := l.toNat / 2 ^ pos % 2 ^ len
      let d := { d with mordant := { d.mordant with rewrites := d.mordant.rewrites.erase (p, key, a, part) } }
      match scrubWord dat syn v with
      | some (x, true) =>
        let d := updTile d p fun T => T.putLine key a (l ^^^ (BitVec.ofNat 128 (v ^^^ x) <<< pos))
        { d with mordant := { d.mordant with corrected := d.mordant.corrected + 1 } }
      | _ => d

/-! ## Commands -/

def execLoad (seat : Seat) (s : State) : Host.Outcome State Fault Refusal := lift (execCmd seat 0x0201 loadCmd) s
def execStreamLoad (seat : Seat) (s : State) : Host.Outcome State Fault Refusal := lift (execCmd seat 0x0202 streamLoadCmd) s
def execIntakeWrite (seat : Seat) (port : Port) (bytes : List Byte) (s : State) : Host.Outcome State Fault Refusal :=
  lift (intake seat port bytes) s
def execImageHeader (s : State) : Host.Outcome State Fault Refusal := lift judgeHeader s
def execImageFrame (s : State) : Host.Outcome State Fault Refusal := lift takeFrame s
def execLoadEndChecks (s : State) : Host.Outcome State Fault Refusal := lift endChecks s
def execLoadTimeout (s : State) : Host.Outcome State Fault Refusal := lift loadTimeout s
def execAbort (seat : Seat) (port : Port) (s : State) : Host.Outcome State Fault Refusal := lift (abortWrite seat port) s
def execStreamDataRx (s : State) : Host.Outcome State Fault Refusal := lift streamRx s
def execStreamTerminator (s : State) : Host.Outcome State Fault Refusal := lift streamEnd s
def execMordantFrameCheck (s : State) : Host.Outcome State Fault Refusal := lift mordantShare s
def execMordantRewrite (die : Fin 4) (s : State) : Host.Outcome State Fault Refusal := lift (mordantRewrite die) s

end Sys2Proof.Machine
end

