-- ==== Sys2Proof/Machine/Mailbox.lean ====
section
/-! DEFINITION. Accepting a mailbox command: reading the command buffer (R297, R299), the checks that come before a command's own
(R9, R306, R312), and the order of accepted commands (R298). -/

namespace Sys2Proof.Machine

/-! ## The catalogue (Table 14.6) -/

/-- A row of Table 14.6: opcode, first version (major × 256 + minor), permissions, the seats that the owning chapter's seat rule
lets write what the command writes, the kind of long operation (0 for none). -/
structure OpRow where
  op : Nat
  since : Nat
  perms : List Nat
  seats : List Seat
  long : Nat
  deriving DecidableEq, Repr

def opRows : List OpRow :=
  [⟨0x0101, 0x100, [], everySeat, 0⟩, ⟨0x0102, 0x100, [], everySeat, 0⟩, ⟨0x0110, 0x100, [], everySeat, 0⟩,
   ⟨0x0111, 0x100, [], everySeat, 0⟩, ⟨0x0201, 0x100, [pLOAD], everySeat, 1⟩, ⟨0x0202, 0x202, [pLOAD], everySeat, 2⟩,
   ⟨0x0301, 0x100, [pRUN], everySeat, 0⟩, ⟨0x0302, 0x100, [pRUN], everySeat, 0⟩, ⟨0x0303, 0x200, [pRUN], everySeat, 0⟩,
   ⟨0x0310, 0x201, [pRUN, pBANKS_R], everySeat, 5⟩, ⟨0x0401, 0x100, [pTRAIL], everySeat, 4⟩,
   ⟨0x0501, 0x200, [pCAPTURE], [.manager, .run, .debug], 0⟩, ⟨0x0502, 0x200, [pCAPTURE], [.manager, .run, .debug], 0⟩,
   ⟨0x0601, 0x200, [pBASKET], [.manager, .run], 0⟩]
  ++ [⟨0x0701, 0x200, [pLINKS], boardSeats, 0⟩, ⟨0x0702, 0x200, [pLINKS], boardSeats, 0⟩,
   ⟨0x0801, 0x201, [pSYSTEM], boardSeats, 0⟩, ⟨0x0802, 0x201, [pSYSTEM], boardSeats, 0⟩,
   ⟨0x0803, 0x201, [pSYSTEM], boardSeats, 0⟩, ⟨0x0810, 0x201, [pSYSTEM], everySeat, 0⟩,
   ⟨0x0811, 0x201, [pSYSTEM], boardSeats, 0⟩, ⟨0x0901, 0x200, [pRUN], everySeat, 0⟩, ⟨0x0902, 0x204, [], managerSeat, 0⟩,
   ⟨0x0A01, 0x100, [pDIAG], everySeat, 0⟩, ⟨0x0A02, 0x200, [pDIAG], everySeat, 0⟩, ⟨0x0A10, 0x200, [pKEEP_R], everySeat, 0⟩,
   ⟨0x0A11, 0x200, [], managerSeat, 0⟩, ⟨0x0A12, 0x200, [], managerSeat, 0⟩, ⟨0x0A13, 0x200, [], managerSeat, 0⟩,
   ⟨0x0A20, 0x200, [], managerSeat, 0⟩, ⟨0x0A21, 0x200, [], managerSeat, 0⟩]
def opRow? (op : Nat) : Option OpRow := opRows.find? fun r => r.op = op

/-- The LENGTH of a command: a fixed number of bytes, but for LOAD (R303), RELAY and FW_STAGE. -/
def lengthOk (c : Cmd) (version : Nat) : Bool :=
  let n := c.length
  let fixed : Nat :=
    match c.opcode with
    | 0x0101 | 0x0110 | 0x0401 | 0x0601 | 0x0701 | 0x0702 | 0x0902 | 0x0A02 | 0x0A21 => 8
    | 0x0111 | 0x0901 | 0x0A01 => 16
    | 0x0301 | 0x0310 => 24
    | 0x0802 => 1024
    | 0x0A20 => 104
    | _ => 0
  if n % 8 ≠ 0 ∨ 2040 < n then false
  else match c.opcode with
    | 0x0201 =>
      if version < 0x200 then n = 0
      else if version < 0x203 then n = 8
      else n = 8 || (n = 40 && bit (c.par 1) 0)
    | 0x0810 | 0x0A11 => decide (16 ≤ n)
    | _ => n = fixed

/-! ## Reading a command (R297, R299) -/

/-- The header at the start of a command buffer, read in 1.x or 2.x form: opcode, LENGTH, TAG. -/
def readHeader (m : Mem) (v1 : Bool) : Nat × Nat × Nat :=
  if v1 then let h := mread m 0 4; (nfld h 31 16, nfld h 15 0, 0)
  else let h := mread m 0 8; (nfld h 63 48, nfld h 47 32, nfld h 31 16)
/-- The form that the first two bytes give. -/
def formOf (m : Mem) : Bool := decide (mread m 0 2 ≠ 0)
/-- The form of a seat's command: the one its first bytes give, for a HELLO and for a seat without a session; else that of the
session's version. -/
def cmdForm (S : SeatSt) : Bool :=
  let v1 := formOf S.cmdBuf
  if (readHeader S.cmdBuf v1).1 = 0x0101 || !S.session then v1 else decide (S.version < 0x200)
/-- A command as a buffer gives it. -/
def parseCmd (seat : Seat) (relayed v1 : Bool) (m : Mem) (prot : W64) (port : Port) : Cmd :=
  let (op, n, tag) := readHeader m v1
  { seat := seat, relayed := relayed, opcode := op, tag := tag, length := n
    params := wordsOf (mbytes m (if v1 then 4 else 8) (min n 2040 / 8 * 8)), v1 := v1, prot := prot, port := port }

/-! ## The checks before a command's own (R9, R312) -/

/-- UNKNOWN_OPCODE, BAD_LENGTH, SEAT_DENIED; 0 where none applies. -/
def catalogCheck (d : Dev) (c : Cmd) (version : Nat) : Nat :=
  match opRow? c.opcode with
  | none => 1
  | some r =>
    if version < r.since then 1
    else if !lengthOk c version then 2
    else if r.seats.contains c.seat && r.perms.all (seatHolds d c.seat) then 0
    else 0x0103

/-- A command joins the order of accepted ones; a long one begins the busy rule (R298, R300). -/
def enqueueCmd (c : Cmd) (d : Dev) : Dev :=
  let k := ((opRow? c.opcode).map (·.long)).getD 0
  let d := { d with host := { d.host with order := d.host.order ++ [c] } }
  if k = 0 then d
  else { d with host := { d.host with longKind := k, longSeat := c.seat, longCmd := none }, ld := { d.ld with ahead := [] } }



/-- A command that fails a check on its way in waits for its turn to be answered (R298). -/
def enqueueRefused (c : Cmd) (code : Nat) (d : Dev) : Dev :=
  { d with host := { d.host with order := d.host.order ++ [{ c with refused := code }] } }
/-- A command accepted under a protocol version. -/
def acceptCmd (c : Cmd) (version : Nat) (d : Dev) : Dev :=
  let code := catalogCheck d c version
  if code = 0 then enqueueCmd c d else enqueueRefused c code d

/-- A command accepted from a seat's own buffer, with the session checks first. -/
def acceptSeat (seat : Seat) (port : Port) (d : Dev) : Dev :=
  let S := seatOf d.host seat
  let c := parseCmd seat false (cmdForm S) S.cmdBuf S.protUse port
  let d := updSeat d seat fun S => { S with ring := true }
  if c.opcode ≠ 0x0101 ∧ !S.session then enqueueRefused c 0x0101 d
  else if c.opcode ≠ 0x0101 ∧ S.port ≠ port then enqueueRefused c 0x0102 d
  else acceptCmd c (if c.opcode = 0x0101 then 0x204 else S.version) d

end Sys2Proof.Machine
end

