-- ==== Sys2Proof/Machine/Systems.lean ====
section
/-! DEFINITION. Systems and twin pairs (chapter 13): lost partners and STRANDED, plans, the pair link, heartbeats, checkpoint
mirroring, the mailbox relay, hot detach. -/

namespace Sys2Proof.Machine

/-- A write of the system and pair registers: the manager and the board seat alone (R289). -/
def sysWrite (m : Master) (off : Nat) (v : W64) (f : Dev → Dev) : Dev → Dev :=
  byWrite m (aRun off) v fun d => if byOneOf m boardSeats then f d else d

/-! ## Lost partners (R274, R275) -/

/-- What is left of R274 once the 100 µs have passed: a used link with a member lane not in block lock, whose retrains have
failed three times since it left UP, in a state from RELEASING onward. -/
def lostLink (d : Dev) (l : Nat) : Bool :=
  let E := linkOf d l
  decide (4 ≤ stCode d.run.st) && (usedLinks d).contains l && decide (3 ≤ (E.retrainFails - E.failsAtLoss).toNat)
    && (members d l).any fun i => (laneOf d i).st = .training || (laneOf d i).st = .down
/-- A RUNNING module freezes at its committed cycle, by the loss of the link of a lane. -/
def strand (l : Nat) (d : Dev) : Dev :=
  let d := abandonCycle (recordHalts d)
  let d := setHold false false { d with
    run := { d.run with midCycle := true, baseWait := false, fullPass := false }
    bkt := { d.bkt with delivOpen := false }
    sys := { d.sys with lostCycle := d.run.committed, strandLane := l } }
  let d := settle .stranded d
  setCauses (setBit d.run.reqs cPARTNER_LOST true) d
/-- PARTNER_LOST. -/
def partnerLost (l : Nat) (d : Dev) : Dev :=
  if !lostLink d l then d
  else
    let d := if d.sys.lost then d
      else { d with sys := { d.sys with lost := true, lostLane := l, lostModid := fld (linkOf d l).partner 53 48 } }
    let d := logEntry 0x0801 none d
    if d.run.st = .running then strand l d else d

/-! ## Plans (R272, R277, R279) -/

/-- SYS_STATUS.REASON, with a log entry for a refusal. -/
def sysReason (code : Nat) (d : Dev) : Dev :=
  let d := { d with sys := { d.sys with reason := code } }
  if code = 0 then d else logEntry code none d
/-- The agreed stop cycle. -/
def agreedCycle (d : Dev) : Nat := d.run.committed + d.sys.diameter + max 2 d.sys.margin
def planStopCode (d : Dev) : Nat :=
  if stCode d.run.st < 3 then 4 else if !d.sys.master then 0x0802 else 0
/-- PLAN_STOP. -/
def planStop (d : Dev) : Dev :=
  let code := planStopCode d
  if code ≠ 0 then sysReason code d
  else
    let n := agreedCycle d
    let d := writeRunMode d.run.mode true (writeStopAt (w64 n) d)
    { d with sys := { d.sys with planStop := n, planDone := true, reason := 0 } }

/-- The valid SYS_VIEW entries: (COMMITTED, HEAD). -/
def views (d : Dev) : List (Nat × Nat) :=
  (List.range 64).filterMap fun m =>
    let w := tget 0 d.sys.viewCommitted m
    if bit w 63 then some (fld w 62 0, fld (tget 0 d.sys.viewHead m) 62 0) else none
/-- The common cycle: the lowest COMMITTED. -/
def commonCycle (d : Dev) : Nat :=
  match views d with
  | [] => 0
  | (c, _) :: r => r.foldl (fun m x => min m x.1) c
def planRewindCode (d : Dev) : Nat :=
  if !d.sys.master then 0x0802
  else if (views d).isEmpty then 0x0803
  else if (views d).any fun x => decide (commonCycle d < x.2) then 0x0804
  else 0
/-- PLAN_REWIND. -/
def planRewind (d : Dev) : Dev :=
  let code := planRewindCode d
  if code ≠ 0 then sysReason code { d with sys := { d.sys with planRewind := 0 } }
  else { d with sys := { d.sys with planRewind := commonCycle d, planDone := true, reason := 0 } }
/-- Writes of SYS_VIEW (Table 13.6). -/
def writeViewC (m : Nat) (v : W64) (d : Dev) : Dev :=
  { d with sys := { d.sys with viewCommitted := tset 0 d.sys.viewCommitted m v } }
def writeViewH (m : Nat) (v : W64) (d : Dev) : Dev :=
  { d with sys := { d.sys with viewHead := tset 0 d.sys.viewHead m (setBit v 63 false) } }
/-- SETTLE; what the queue controllers have not yet served of the drain is served before STOPPED (R106, R275; log entry 93). -/
def settleRun (d : Dev) : Dev :=
  if d.run.st = .stranded then sysReason 0 (settle .stopped (drainAll d)) else sysReason 4 d

/-! ## The pair link (R280, R281) -/

def pairUp (d : Dev) : Bool := decide (linkState d 1024 = 3)
/-- The pair link trains by itself. -/
def pairTrain (d : Dev) : Dev :=
  if d.pair.enable && !d.pair.wrongTwin && !d.pair.detached && d.clk.pw ≠ 4 && linkState d 1024 = 0 && trainCode d 1024 = 0
  then trainLink 1024 d else d
/-- PAIR_CFG: a write lets a link that found a wrong twin train again, and mirroring go on. -/
def writePairCfg (v : W64) (d : Dev) : Dev :=
  let was := d.pair.enable
  let d := if was && !bit v 0 then resetLink 1024 (goDown 1024 d) else d
  let d := updPair (fun P => { P with
    mint := fld v 12 8, relayAny := bit v 2, mirror := bit v 1, enable := bit v 0, wrongTwin := false, mirrorStopped := false }) d
  if bit v 0 && !was then updLanes (members d 1024) (fun A => { A with adapted := false }) (resetLink 1024 d) else d
/-- A message of kind k has arrived on the pair link, whose logic runs. -/
def onMessage (k : Nat) (w : W64) (f : Dev → Dev) : Dev → Dev := onLane 1024 fun d => if pairUp d && fld w 63 56 = k then f d else d

/-! ## Heartbeats (R282) -/

/-- The HEARTBEAT that this module sends. -/
def heartbeatWord (d : Dev) : W64 :=
  word [(56, 8, 1), (50, 6, d.fuse.modid.toNat), (46, 4, stCode d.run.st), fb 45 d.pair.detaching, (0, 32, d.run.committed)]
def beat (d : Dev) : Dev := if pairUp d then sendPair [[heartbeatWord d]] d else d
def takeBeat (w : W64) (d : Dev) : Dev :=
  updPair (fun P => { P with twinState := fld w 49 46, twinAlive := true, hbRow := 0 }) d
/-- A relay ends with a code of Table 13.4, which PAIR_STATUS.REASON shows. -/
def pairReason (code : Nat) (d : Dev) : Dev := updPair (fun P => { P with reason := code }) d
/-- A relay is in flight. -/
def relaying (d : Dev) : Bool := d.host.held.any fun c => c.opcode = 0x0810
/-- The in-flight relay completes with a code; it counts unless X did not accept it (R284; log entry 98). -/
def endRelay (code : Nat) (d : Dev) : Dev :=
  let d := updPair (fun P => { P with rspBuf := [] }) d
  if !relaying d then d
  else
    let d := if code = 0x0813 then d else updPair (fun P => { P with relayed := P.relayed + 1 }) d
    finishHeld 0x0810 code [] (if 0x0810 ≤ code ∧ code ≤ 0x0815 then pairReason code d else d)
/-- A 10 µs interval without a HEARTBEAT; the eighth in a row declares the twin gone, unless it is detached (R286). -/
def missBeat (d : Dev) : Dev :=
  let d := updPair (fun P => { P with hbMissed := P.hbMissed + 1 }) d
  if d.pair.twinDetached then d
  else
    let n := min 8 (d.pair.hbRow + 1)
    let first := d.pair.hbRow = 7
    let d := updPair (fun P => { P with hbRow := n }) d
    if first then endRelay 0x0811 (updPair (fun P => { P with twinGone := true, twinAlive := false }) d) else d

/-! ## Checkpoint mirroring (R283) -/

/-- Groups of 31 words with their byte offsets. -/
def mirrorMessages (slot : Bool) (ws : List W64) : List (List W64) :=
  (chunks ws.length ws).zipIdx.map fun (l, i) => word [(56, 8, 2), fb 48 slot, (0, 40, 248 * i)] :: l
/-- The body of a mirrored checkpoint: the four dies in ascending order. -/
def mirrorBody (d : Dev) (k : Ckpt) : List W64 := dies.flatMap (ckptWords d k)
/-- Words of a header that the spec leaves open. -/
def openWords : Nat → Dev → List W64 × Dev
  | 0, d => ([], d)
  | n + 1, d =>
    let (w, d) := takeFreeWord d
    let (l, d) := openWords n d
    (w :: l, d)
/-- A 64-byte header: MODID, BUILD_ID, a cycle and a length, a word each in that order; the rest is open (log entry 6). -/
def header (cycle len : Nat) (d : Dev) : List W64 × Dev :=
  let (l, d) := openWords 4 d
  ([w64 d.fuse.modid.toNat, d.ld.buildId, w64 cycle, w64 len] ++ l, d)
/-- MIRROR_SEND: the messages of the checkpoint in transfer are formed; toward a detached twin they are absorbed (R286). -/
def sendMirror (d : Dev) : Dev :=
  match d.pair.inTransfer with
  | none => d
  | some k =>
    let body := mirrorBody d k
    let (h, d) := header k.cycle (8 * body.length) d
    let slot := d.pair.outSlot
    let done : List W64 := [word [(56, 8, 3), fb 48 slot, (0, 32, crc32c (bytesOfWords body))], w64 k.cycle]
    let msgs := mirrorMessages slot (h ++ body) ++ [done]
    if d.pair.twinDetached then
      updPair (fun P => { P with inTransfer := none, absorbed := P.absorbed + w64 msgs.length }) d
    else if !pairUp d || d.pair.mirrorQueued then d
    else sendPair msgs (updPair (fun P => { P with mirrorQueued := true, outSlot := !slot }) d)

/-- The MIRROR region, if it is large enough. -/
def mirrorRegion? (d : Dev) : Option (Nat × Nat) := (hbmRegion? d 4).filter fun x => decide (64 * 2 ^ 20 ≤ x.2)
/-- A response message of one word that carries a code and no bytes (log entry 26). -/
def codeMessage (seat code : Nat) : List W64 := [word [(56, 8, 5), (54, 2, seat), fb 53 true, (32, 16, code)]]
/-- MIRROR_DATA: one WRITE to a stack's node, of which STATUS OK alone has performed it (R321, R322; log entry 100). -/
def takeMirror (w : W64) (ws : List W64) (d : Dev) : Dev :=
  match mirrorRegion? d with
  | none => sendTwin [codeMessage 0 0x0815] d
  | some (base, size) =>
    let off := fld w 39 0
    if size / 2 < off + 8 * ws.length ∨ 31 < ws.length then d
    else
      let a := base + b2n (bit w 48) * (size / 2) + off
      let (n, d) := engineCall (enginePacket 0x40A a true ws.length ws d) [] d
      let d := if n = 0 then putHbmWords a ws d else d
      updPair (fun P => { P with inLen := if off = 0 then 8 * ws.length else max P.inLen (off + 8 * ws.length) }) d
/-- MIRROR_DONE: the slot is valid once its CRC matches. -/
def endMirror (w : W64) (cycle : W64) (d : Dev) : Dev :=
  match mirrorRegion? d with
  | none => d
  | some (base, size) =>
    let a := base + b2n (bit w 48) * (size / 2)
    if crc32c (hbmBytes d.mem (a + 64) (d.pair.inLen - 64)) = fld w 31 0 then
      updPair (fun P => { P with mirrorIn := cycle.toNat, inLen := 0 }) d
    else updPair (fun P => { P with inLen := 0 }) d

/-- The stack that the data of a mirror message go to. -/
def mirrorDie (w : W64) (d : Dev) : Option Nat :=
  ((mirrorRegion? d).filter fun _ => fld w 63 56 = 2).map fun (base, size) => hbmDie (base + b2n (bit w 48) * (size / 2) + fld w 39 0)
/-- A message of a mirror acts. -/
def mirrorMessage (ws : List W64) (d : Dev) : Dev :=
  let w := ws.headD 0
  if fld w 63 56 = 2 then takeMirror w (ws.drop 1) d else endMirror w ((ws.drop 1).headD 0) d
/-- The messages that have arrived act in their order, but while the WRITE of the next one may not be injected (R322, R323). The fuel is
their number. -/
def mirrorGoOn : Nat → Dev → Dev
  | 0, d => d
  | n + 1, d =>
    match d.pair.arrived with
    | [] => d
    | ws :: rest =>
      if (mirrorDie (ws.headD 0) d).any fun die => engineStalled 0x40A die d then d
      else mirrorGoOn n (mirrorMessage ws (updPair (fun P => { P with arrived := rest }) d))
def mirrorAll (d : Dev) : Dev := mirrorGoOn d.pair.arrived.length d
/-- A message of a mirror arrives. -/
def mirrorIn (ws : List W64) (d : Dev) : Dev := mirrorAll (updPair (fun P => { P with arrived := P.arrived ++ [ws] }) d)

/-! ## The mailbox relay (R284) -/

/-- The twin has been declared gone and has sent no HEARTBEAT since. -/
def twinAway (d : Dev) : Bool := d.pair.hbRow = 8
/-- RELAY: the inner command goes to the twin, for the seat of the class used here; a parameter that names another class is out of
its range (log entry 98). -/
def relayCmd (c : Cmd) (d : Dev) : Dev :=
  if fld (c.par 1) 1 0 ≠ seatNo c.seat then respond c 3 [] d
  else if d.pair.twinDetached then respond c 0x0812 [] (pairReason 0x0812 (updPair (fun P => { P with absorbed := P.absorbed + 1 }) d))
  else if twinAway d then respond c 0x0811 [] (pairReason 0x0811 d)
  else holdCmd c (sendPair (relayMessages 4 (seatNo c.seat) (c.params.drop 1)) (updPair (fun P => { P with rspBuf := [] }) d))
/-- This module accepts relay. -/
def acceptsRelay (d : Dev) : Bool := (!d.host.upA && !d.host.upB) || d.pair.relayAny
/-- A whole relayed command: it executes as from this module's seat of the class named, in 2.x form, at version 2.4. -/
def runRelayed (seat : Seat) (ws : List W64) (d : Dev) : Dev :=
  if !acceptsRelay d then sendTwin [codeMessage (seatNo seat) 0x0813] d
  else
    let d := takeUp seat d
    if longOp d then sendTwin [codeMessage (seatNo seat) 4] (refuseSeat seat d)
    else acceptCmd (parseCmd seat true false (mwriteWords [] 0 ws) (seatOf d.host seat).protUse (seatOf d.host seat).port) 0x204 d
/-- RELAY_CMD. -/
def takeRelay (w : W64) (ws : List W64) (d : Dev) : Dev :=
  let all := if fld w 15 0 = 0 then ws else d.pair.relayBuf ++ ws
  if bit w 53 then runRelayed (seatOfNo (fld w 55 54)) all (updPair (fun P => { P with relayBuf := [] }) d)
  else updPair (fun P => { P with relayBuf := all }) d
/-- The twin has no MIRROR region: what waits of the mirror under way is dropped, else the last one sent was no valid one; the answers to
its other messages say no more (R283; log entry 98). -/
def mirrorRefused (d : Dev) : Dev :=
  let d := if d.pair.inTransfer.isSome then dropMirror d
    else if d.pair.mirrorStopped then d
    else updPair (fun P => { P with mirrorOut := P.mirrorPrev, outSlot := !P.outSlot }) d
  updPair (fun P => { P with mirrorStopped := true }) (pairReason 0x0815 d)
/-- RELAY_RSP: the response, or a code that a twin sends without one (`codeMessage`). -/
def takeRsp (w : W64) (ws : List W64) (d : Dev) : Dev :=
  let code := fld w 47 32
  if code = 0x0815 then mirrorRefused d
  else if code = 0x0813 ∨ code = 4 then endRelay code d
  else
    let all := if fld w 15 0 = 0 then ws else d.pair.rspBuf ++ ws
    if bit w 53 then finishHeld 0x0810 0 all (updPair (fun P =>
      { P with rspBuf := [], relayed := P.relayed + w64 (b2n (relaying d)) }) d)
    else updPair (fun P => { P with rspBuf := all }) d

/-! ## Hot detach (R285, R286) -/

def detachRefused (d : Dev) : Bool :=
  longOp d || d.run.st = .loading || d.run.st = .releasing || d.run.st = .running || d.run.st = .stopping || d.run.st = .rewinding
def modidMessage (k : Nat) (d : Dev) : List W64 := [word [(56, 8, k), (50, 6, d.fuse.modid.toNat)]]
/-- PAIR_CTRL.DETACH; the code is 0 where it is accepted. -/
def startDetach (d : Dev) : Nat × Dev :=
  if detachRefused d then (0x0814, logEntry 0x0814 none (updPair (fun P => { P with reason := 0x0814 }) d))
  else (0, sendPair [modidMessage 6 d] (updPair (fun P => { P with detaching := true }) d))
/-- Every lane and pin goes idle: every enabled link goes DOWN, the TIO pins are high-Z with their keepers. -/
def idlePins (d : Dev) : Dev :=
  let d := (enabledLinks d ++ (if d.pair.enable then [1024] else [])).foldl (fun d l => goDown l d) d
  { d with pins := { d.pins with lanesIdle := true }, tio := { d.tio with highZ := true } }
/-- The acknowledgement, or its 100 µs, ends the wait. -/
def endDetach (d : Dev) : Dev :=
  if d.pair.detaching then updPair (fun P => { P with detached := true, detaching := false }) (idlePins d) else d
/-- Messages that a detached twin takes no more: mirror data, relayed commands and responses (R286). -/
def forTwin (ws : List W64) : Bool := isMirror ws || ws.head?.any fun w => fld w 63 56 = 4 || fld w 63 56 = 5
/-- DETACH received: what waits for the twin is absorbed, and the message is acknowledged. -/
def twinLeaves (d : Dev) : Dev :=
  let n := (d.pair.outbox.filter forTwin).length
  let d := updPair (fun P => { P with outbox := P.outbox.filter (!forTwin ·), absorbed := P.absorbed + w64 n, twinDetached := true
                                      hbRow := 0 }) (dropMirror d)
  endRelay 0x0812 (sendPair [modidMessage 7 d] d)

/-! ## Commands -/

def execPartnerLost (lane : Fin 1024) (s : State) : Host.Outcome State Fault Refusal := lift (fun d => if nocOn d.clk then partnerLost lane d else d) s
def execSysCtrlPlanStop (m : Master) (s : State) : Host.Outcome State Fault Refusal := lift (sysWrite m 0xC08 1 planStop) s
/-- The PLAN_STOP command: its code and N. -/
def planStopCmd (d : Dev) : Nat × List W64 × Dev :=
  let d' := planStop d
  (d'.sys.reason, if d'.sys.reason = 0 then [w64 d'.sys.planStop] else [], d')
def execPlanStop (seat : Seat) (s : State) : Host.Outcome State Fault Refusal :=
  lift (execNow seat 0x0801 fun _ d => planStopCmd d) s
def execSysCtrlPlanRewind (m : Master) (s : State) : Host.Outcome State Fault Refusal := lift (sysWrite m 0xC08 2 planRewind) s
/-- The PLAN_REWIND command: SYS_VIEW entries 0 to 63 are written first, two words each. -/
def planRewindCmd (c : Cmd) (d : Dev) : Nat × List W64 × Dev :=
  let d := (List.range 64).foldl (fun d m => writeViewH m (c.par (2 * m + 2)) (writeViewC m (c.par (2 * m + 1)) d)) d
  let d' := planRewind d
  (d'.sys.reason, if d'.sys.reason = 0 then [w64 d'.sys.planRewind] else [], d')
def execPlanRewind (seat : Seat) (s : State) : Host.Outcome State Fault Refusal := lift (execNow seat 0x0802 planRewindCmd) s
def execSysCtrlSettle (m : Master) (s : State) : Host.Outcome State Fault Refusal := lift (sysWrite m 0xC08 4 settleRun) s
def execSettle (seat : Seat) (s : State) : Host.Outcome State Fault Refusal :=
  lift (execNow seat 0x0803 fun _ d => let d := settleRun d; (d.sys.reason, [], d)) s
def execPairLinkTrain (s : State) : Host.Outcome State Fault Refusal := lift (onLane 1024 pairTrain) s
def execPairCfgWrite (m : Master) (v : W64) (s : State) : Host.Outcome State Fault Refusal := lift (sysWrite m 0xC40 v (writePairCfg v)) s
def execHeartbeatSend (s : State) : Host.Outcome State Fault Refusal := lift (onLane 1024 beat) s
def execHeartbeat (word : W64) (s : State) : Host.Outcome State Fault Refusal := lift (onMessage 1 word (takeBeat word)) s
def execHeartbeatMissed (s : State) : Host.Outcome State Fault Refusal := lift (onLane 1024 missBeat) s
def execMirrorSend (s : State) : Host.Outcome State Fault Refusal := lift (onLane 1024 sendMirror) s
def execMirrorData (word : W64) (words : List W64) (s : State) : Host.Outcome State Fault Refusal :=
  lift (onMessage 2 word (mirrorIn (word :: words))) s
def execMirrorDone (word : W64) (cycle : W64) (s : State) : Host.Outcome State Fault Refusal :=
  lift (onMessage 3 word (mirrorIn [word, cycle])) s
def execRelay (seat : Seat) (s : State) : Host.Outcome State Fault Refusal := lift (execCmd seat 0x0810 relayCmd) s
def execRelayCmd (word : W64) (words : List W64) (s : State) : Host.Outcome State Fault Refusal :=
  lift (onMessage 4 word (takeRelay word words)) s
def execRelayRsp (word : W64) (words : List W64) (s : State) : Host.Outcome State Fault Refusal :=
  lift (onMessage 5 word (takeRsp word words)) s
def execPairCtrlDetach (m : Master) (s : State) : Host.Outcome State Fault Refusal :=
  lift (sysWrite m 0xC48 1 fun d => (startDetach d).2) s
def execDetach (seat : Seat) (s : State) : Host.Outcome State Fault Refusal :=
  lift (execNow seat 0x0811 fun _ d => let (code, d) := startDetach d; (code, [], d)) s
def execDetachMsg (word : W64) (s : State) : Host.Outcome State Fault Refusal := lift (onMessage 6 word twinLeaves) s
def execDetachAck (word : W64) (s : State) : Host.Outcome State Fault Refusal :=
  lift (withLinks (onMessage 7 word endDetach)) s
def execDetachTimeout (s : State) : Host.Outcome State Fault Refusal := lift (withLinks (onLane 1024 endDetach)) s

end Sys2Proof.Machine
end

