-- ==== Sys2Proof/Machine/Clocks.lean ====
section
/-! DEFINITION. Clocks, start-up, power states and Thermos (chapter 17). -/

namespace Sys2Proof.Machine

def updClk (f : Clk → Clk) (d : Dev) : Dev := { d with clk := f d.clk }

/-- A write of the clocks-and-power and pin registers: the manager and the board seat alone (R368, R382). -/
def clkWriter (m : Master) : Bool := byOneOf m boardSeats
def clkWrite (m : Master) (off : Nat) (v : W64) (f : Dev → Dev) : Dev → Dev :=
  byWrite m (aClocks off) v fun d => if clkWriter m then f d else d

/-! ## Clock failure and the safe state (R349 to R353) -/

/-- A switch of the root reference. -/
def switchRoot (xtal : Bool) (d : Dev) : Dev :=
  updClk (fun c => { c with source := xtal, switches := (c.switches + 1) % 2 ^ 32 }) d
/-- The root runs on IOSC again, and the module goes to its safe state (R351). -/
def safeState (d : Dev) : Dev :=
  let ls := enabledLinks d ++ (if d.pair.enable then [1024] else [])
  let d := idlePins (switchRoot false d)
  let d := ls.foldl (fun d l => updLink d l fun E => { E with reason := 0x0910 }) d
  let d := registerStop cCLOCK_FAIL (logEntry 0x0910 none d)
  updClk (fun c => { c with failBarrier := decide (d.run.st = .releasing ∨ (d.run.st = .stopping ∧ ¬ d.run.draining)) }) d
/-- A monitor trips (R350, R352): off the crystal it only shows in XTAL_OK. Whether IOSC is restarting at that moment, with its ready
detector deasserted, is an open value (log entry 60). -/
def clockTrip (t : ClockTrip) (d : Dev) : Dev :=
  if !d.clk.source then (if t = .crystal then updClk (fun c => { c with xtalOk := false }) d else d)
  else
    let (restarts, d) := takeFreeBit d
    let d := updClk (fun c => { c with ioscReady := c.ioscReady && !restarts }) d
    match t with
    | .crystal =>
      let d := updClk (fun c => { c with failed := true, xtalLost := true, xtalOk := false }) d
      if d.clk.ioscReady then safeState d else updClk (fun c => { c with bothLost := true, frozen := true }) d
    | .pll => safeState (updClk (fun c => { c with failed := true, pllLost := true, pllRelocking := true, frozen := true }) d)
/-- No barrier completed within 100 µs of the failure: steps 1 to 3 of R180. -/
def failTimeout (d : Dev) : Dev :=
  if d.clk.failBarrier && d.run.st = .stopping && !d.run.draining then
    breakCycle (setBit d.run.reqs cCLOCK_FAIL true) (updClk (fun c => { c with failBarrier := false }) (recordHalts d))
  else d
/-- The IOSC ready detector asserts: domains that wait for it alone restart. -/
def ioscBack (d : Dev) : Dev :=
  let d := updClk (fun c => { c with ioscReady := true }) d
  if d.clk.frozen && d.clk.source && d.clk.failed then safeState (updClk (fun c => { c with frozen := false }) d)
  else if d.clk.frozen && !d.clk.source && !d.clk.pllRelocking then updClk (fun c => { c with frozen := false }) d
  else d
/-- The root PLL relocks on IOSC; no domain runs on a reference that the ready detector has not cleared (R352). -/
def pllBack (d : Dev) : Dev :=
  if d.clk.pllRelocking then updClk (fun c => { c with pllRelocking := false, frozen := !c.ioscReady }) d else d
/-- CLK_CTRL.USE_XTAL. -/
def useXtal (d : Dev) : Dev :=
  if !d.clk.xtalOk then logOpen (updClk (fun c => { c with switchRefused := true }) d)
  else if d.clk.source then d
  else switchRoot true d
/-- CLK_STATUS: FAILED clears only on the crystal, and the next run then re-enables the TIO drivers (R353). -/
def writeClkStatus (v : W64) (d : Dev) : Dev :=
  let clears := bit v 3 && d.clk.source && d.clk.failed
  updClk (fun c => { c with
    switchRefused := c.switchRefused && !bit v 7, bothLost := c.bothLost && !bit v 6, pllLost := c.pllLost && !bit v 5
    xtalLost := c.xtalLost && !bit v 4, failed := c.failed && !clears, tioReenable := c.tioReenable || clears }) d

/-! ## Resets (R309, R354) -/

/-- A PENDING slot that has booted and was not confirmed becomes FAILED at a module reset. -/
def slotReset (st : Nat) (booted : Bool) : Nat := if st = 2 ∧ booted then 5 else st
def keepReset (k : Keep) : Keep :=
  { k with stA := slotReset k.stA k.bootedA, stB := slotReset k.stB k.bootedB, selftest := none }
/-- The wear ledger's total. -/
def ledgerTotal (k : Keep) : Nat := (tget 0 k.ledger k.ledgerWord).toNat
/-- The wear limit of R364 in seconds. -/
abbrev wearLimit : Nat := 7200000
/-- A module reset: the Keep store, the fuses, the outside world and THERMTRIP_N (but for a power-on reset) stay; counters of
the clocks block clear at power-on alone (R368). -/
def resetDev (powerOn retry : Bool) (d : Dev) : Dev :=
  { Dev.reset with
    fuse := d.fuse
    keep := keepReset d.keep
    tio := { Tio.reset with vddio := d.tio.vddio, keeper := if powerOn then 0 else d.tio.keeper }
    host := { Host'.reset with dmaA := d.host.dmaA, dmaB := d.host.dmaB, msixSent := d.host.msixSent }
    run := { Run.reset with haltLow := d.run.haltLow }
    pins := { Pins.reset with
      wakeLow := d.pins.wakeLow, thermtrip := !powerOn && d.pins.thermtrip, jtag := if powerOn then .idcode else d.pins.jtag }
    clk := { Clk.reset with
      switches := if powerOn then 0 else d.clk.switches, tscSeq := if powerOn then 0 else d.clk.tscSeq
      tried := d.clk.tried, tryOther := retry }
    th := { Thermos.reset with
      throttles := if powerOn then 0 else d.th.throttles, wearSeconds := ledgerTotal d.keep
      wearCapped := decide (wearLimit < ledgerTotal d.keep) }
    free := d.free }
/-- The controller after a module reset: its lines as the blocks' lines stand. -/
def irqAfter (d : Dev) : Irq :=
  let hub := (hubLines d).foldl (fun t (s, b) => putSrc t s b) []
  { Irq.reset with line := (tileLines d).foldl (fun t p => putSrc t (0x400 + p) true) hub }
def resetAll (powerOn retry : Bool) (d : Dev) : Irq × Dev :=
  let d := resetDev powerOn retry d
  (irqAfter d, d)

/-! ## Start-up (R355, R356) -/

/-- The state of a slot: 0 EMPTY to 5 FAILED. -/
def slotState (k : Keep) (b : Bool) : Nat := if b then k.stB else k.stA
def slotBooted (k : Keep) (b : Bool) : Bool := if b then k.bootedB else k.bootedA
/-- The slot that a boot after a reset takes: false A, true B. -/
def chooseSlot (d : Dev) : Option Bool :=
  let k := d.keep
  if d.clk.tryOther then
    let o := !d.clk.tried
    if slotState k o = 3 ∨ slotState k o = 4 then some o else none
  else match [false, true].find? fun b => slotState k b = 2 && !slotBooted k b with
    | some b => some b
    | none => [false, true].find? fun b => slotState k b = 3
/-- The slot that the firmware stage takes: on the way out of DEEP the running slot again (Table 17.4). -/
def bootSlot (d : Dev) : Option Bool := if d.clk.pw = 2 then some d.clk.slot else chooseSlot d
/-- The image of a slot. -/
def slotMem (k : Keep) (b : Bool) : Mem := if b then k.slotB else k.slotA
/-- Whether staged ranges cover the first n bytes. -/
def covers (l : List (Nat × Nat)) (n : Nat) : Bool :=
  decide (n ≤ (sortBy (·.1) l).foldl (fun pos x => if x.1 ≤ pos then max pos x.2 else pos) 0)
/-- The checks of FW_COMMIT: 0, or the code. -/
def imageCode (k : Keep) (b : Bool) : Nat :=
  let m := slotMem k b
  let h := mbytes m 0 256
  let len := leAt h 8 4
  let ext := if b then k.stagedB else k.stagedA
  if h.take 4 ≠ [0x5A, 0x50, 0x46, 0x57] ∨ leAt h 0xFC 4 ≠ crc32c (h.take 0xFC) ∨ len < 256 ∨ 2 ^ 24 < len ∨ !covers ext len then 0x0A11
  else
    let digest := sha384 (h.take 0x40 ++ mbytes m 256 (len - 256))
    if (h.drop 0x40).take 48 ≠ digest ∨ !ecdsaVerify Config.fwKey digest ((h.drop 0x70).take 96) then 0x0A12
    else if leAt h 0x0C 4 < k.rollback then 0x0A13
    else 0
/-- A slot passes its DIGEST and SIGNATURE (R356). What the factory programmed, before anything was staged, the manual does not give: such
an image passes them (log entry 61). -/
def slotVerifies (k : Keep) (b : Bool) : Bool :=
  (if b then k.stagedB else k.stagedA) = [] || imageCode k b = 0 || imageCode k b = 0x0A13
/-- A stage fails. -/
def failStage (detail : Nat) (d : Dev) : Dev :=
  let code := 0x0901 + d.clk.stage
  logEntry code none (updClk (fun c => { c with stFailed := true, stReason := code, stDetail := detail % 256 }) d)
/-- The counters that the end of BOOT clears (R268, R289, R313, R326), and what the first training after BOOT discards (R257). -/
def clearCounters (d : Dev) : Dev :=
  let seat (S : SeatSt) : SeatSt := { S with refused := 0, deniedCount := 0 }
  let lane (A : Lane) : Lane := { A with syncErr := 0, lockLoss := 0, patBits := 0, patErrors := 0 }
  let link (E : Link) : Link :=
    { resetProto E with replays := 0, crcErrors := 0, retrains := 0, retrainFails := 0, failsAtLoss := 0, creditStall := 0, replayStall := 0 }
  { d with
    sn := { d.sn with blocked := 0, rbWait := 0, deadDropped := 0, lateResp := 0, absorbed := 0
                      probes := d.sn.probes.map fun (i, P) => (i, { P with packets := 0, flits := 0, stall := 0, dropped := 0 }) }
    host := { d.host with manager := seat d.host.manager, run := seat d.host.run, diag := seat d.host.diag
                          board := seat d.host.board, crsA := false, crsB := false }
    pair := { (dropMirror d).pair with hbMissed := 0, mirrorSkipped := 0, relayed := 0, absorbed := 0 }
    lanes := (d.lanes.map fun (i, A) => (i, lane A)).filter fun (_, A) => A ≠ Lane.reset
    links := (d.links.map fun (i, E) => (i, link E)).filter fun (_, E) => E ≠ Link.reset }
/-- BOOT ends: the module is IDLE. The controller's lines begin as the blocks' lines stand, whose earlier packets are past (log entry 61). -/
def endBoot (d : Dev) : Irq × Dev :=
  let d := enterState .idle (clearCounters d)
  let d := { d with events := d.events.filter (·.pulse) }
  (irqAfter d, d)
/-- A slot is booted: a PENDING one is marked. -/
def markBoot (b : Bool) (d : Dev) : Dev :=
  let k := d.keep
  let boots := slotState k b = 2
  updClk (fun c => { c with tried := b }) { d with keep := { k with bootedA := k.bootedA || (boots && !b), bootedB := k.bootedB || (boots && b) } }
/-- A slot fails its checks or the 2 s limit: a boot-watchdog reset, after which the other slot is taken (R356). -/
def slotFails (b : Bool) (d : Dev) : Irq × Dev := resetAll false true (markBoot b d)
/-- The firmware stage: the slot is chosen, verified and booted; `okA` and `okB` say whether the Fovia of that slot starts. -/
def firmwareStage (okA okB : Bool) (q : Irq) (d : Dev) : Irq × Dev :=
  match bootSlot d with
  | none => (q, failStage 0 d)
  | some b =>
    let other := d.clk.tryOther
    let ok := slotVerifies d.keep b && if b then okB else okA
    let d := updClk (fun c => { c with slot := b, fallback := other, tryOther := false }) (markBoot b d)
    let d := if other then logEntry 0x0903 none d else d
    if ok then endBoot (updClk (fun c => { c with stage := 3 }) d) else slotFails b d
/-- STARTUP_STAGE. -/
def startupStage (r : StageResult) (q : Irq) (d : Dev) : Irq × Dev :=
  if d.clk.stFailed ∨ 5 ≤ d.clk.stage ∨ d.clk.frozen then (q, d)
  else match r with
    | .failed detail => match if d.clk.stage = 2 then bootSlot d else none with
      | some b => slotFails b d
      | none => (q, failStage detail d)
    | .passed okA okB refclk =>
      let next (d : Dev) : Dev := updClk (fun c => { c with stage := c.stage + 1 }) d
      match d.clk.stage with
      | 0 =>
        let d := updClk (fun c => { c with xtalOk := true }) d
        (q, next (if d.clk.source then d else switchRoot true d))
      | 2 => firmwareStage okA okB q d
      | 4 => (q, next (updClk (fun c => { c with refclk := refclk, calibrated := refclk }) d))
      | _ => (q, next d)
/-- A stage misses its limit: a boot-watchdog reset. -/
def bootWatchdog (q : Irq) (d : Dev) : Irq × Dev :=
  if d.clk.stFailed ∨ 5 ≤ d.clk.stage then (q, d)
  else match if d.clk.stage = 2 then bootSlot d else none with
    | some b => slotFails b d
    | none => resetAll false (decide (d.clk.stage = 2)) d

/-! ## Power states (R358 to R361) -/

/-- Domains that a power state turns off (Table 17.4). -/
def domainsOff (target : Nat) : List Nat := if target = 2 then List.range 15 else List.range 13
/-- Why a request is refused: POWER_STATE_REFUSED, NO_WAKE_SOURCE, or 0 (Table 17.8). -/
def powerCode (target : Nat) (d : Dev) : Nat :=
  let okState := d.run.st = .idle || d.run.st = .loaded || d.run.st = .stopped || (target = 2 && d.run.st = .faulted)
  let okPower := !d.clk.pwRequested && (d.clk.pw = 0 || d.clk.pw = 3)
  if !okState || longOp d || !okPower then 0x0930 else if d.clk.wakeEn = 0 then 0x0931 else 0
/-- A request for SLEEP (1) or DEEP (2). -/
def requestPower (target : Nat) (d : Dev) : Dev :=
  let code := powerCode target d
  let d := updClk (fun c => { c with pwReason := code }) d
  if code ≠ 0 then logEntry code none d else updClk (fun c => { c with pwRequested := true, pwTarget := target }) d
/-- Entry begins, once the command's response is written (log entry 62): the domains absorb. -/
def entryStart (d : Dev) : Dev :=
  if !d.clk.pwRequested then d
  else
    let d := finishHeld 0x0902 0 [] d
    let left := if d.clk.pw = 3 then 1 else 0
    let d := updClk (fun c => { c with pwRequested := false, pw := 1, lastState := left }) d
    (domainsOff d.clk.pwTarget).foldl (fun d m => absorb m d) d
/-- What DEEP loses (Table 17.4): the image with the fabric's contents, HBM, the trail; regions are ISOLATED, pins high-Z. -/
def deepLoss (d : Dev) : Dev :=
  let d := dropSession (emptyTrail (pinsOff d))
  { d with tiles := [], regions := [], image := Header.reset, exch := Exch.reset, mordant := { d.mordant with rewrites := [] }
           mem := { d.mem with hbm := [], stale := [] }
           trail := { d.trail with wrote := false } }
/-- Entry completes once every domain is OFF. -/
def entryDone (d : Dev) : Dev :=
  if d.clk.pw ≠ 1 ∨ !((domainsOff d.clk.pwTarget).all fun m => domainState d m = 2) then d
  else if d.clk.pwTarget = 2 then
    let ls := enabledLinks d ++ (if d.pair.enable then [1024] else [])
    let d := deepLoss (ls.foldl (fun d l => goDown l d) d)
    let keep := bit d.clk.gate 14
    updTh (fun t => { t with setMv := 0 })
      (updClk (fun c => { c with pw := 4, source := c.source && keep, xtalOk := c.xtalOk && keep }) d)
  else
    let d := (enabledLinks d).foldl (fun d l => goDown l d) d
    setRails 600 (updClk (fun c => { c with pw := 3 }) d)
/-- A power state holds a domain off whose own gate is shut: those of the HBM controllers with RUN_EN = 0 (R365). -/
def gatedOff (c : Clk) (m : Nat) : Bool := decide (4 ≤ m ∧ m < 8) && !bit c.gate 6
/-- Domains are powered again. -/
def wakeDomains (d : Dev) : Dev :=
  ((domainsOff d.clk.pwTarget).filter fun m => !gatedOff d.clk m).foldl (fun d m => enableDomain m d) d
/-- An enabled wake source fires: it aborts an entry, out of SLEEP into its exit, or begins exit (R359); exit from DEEP turns the
rails on at IDLE_MV (R377) and passes the start-up stages, with the ports in CRS (R355). -/
def wakeBy (w : Nat) (d : Dev) : Dev :=
  if !d.clk.wakeEn.getLsbD w then d
  else if d.clk.pwRequested ∨ d.clk.pw = 1 then
    let d := finishHeld 0x0902 0x0932 [] (logEntry 0x0932 none d)
    let d := updClk (fun c => { c with pwRequested := false, sleepAborted := true, lastWake := 2 ^ w, pwReason := 0x0932 }) d
    if d.clk.pw = 3 then wakeDomains (updClk (fun c => { c with pw := 2, lastState := 1 }) d)
    else pulse 0x041 (wakeDomains (updClk (fun c => { c with pw := 0 }) d))
  else if d.clk.pw = 3 then wakeDomains (updClk (fun c => { c with pw := 2, lastState := 1, lastWake := 2 ^ w }) d)
  else if d.clk.pw = 4 then
    let d := updClk (fun c => { c with pw := 2, lastState := 2, lastWake := 2 ^ w, stage := 0, stFailed := false
                                       stReason := 0, stDetail := 0, refclk := 0, calibrated := 0 }) d
    wakeDomains (enterState .boot (setRails (levelMv d.th (idleMv d.th)) { d with host := { d.host with crsA := true, crsB := true } }))
  else d
def wakeNo : WakeSource → Nat
  | .host => 0
  | .board => 1
  | .timer => 2
  | .pcie => 3
/-- WAKE_N has been low for `ns`; with 0 it is high again (R359, R382). -/
def wakePin (ns : Nat) (d : Dev) : Dev :=
  let d := { d with pins := { d.pins with wakeLow := decide (ns ≠ 0) } }
  if 1000 ≤ ns then wakeBy 1 d else d
/-- The timer counts from the beginning of entry. -/
def timerWake (d : Dev) : Dev := if d.clk.pw = 1 ∨ d.clk.pw = 3 ∨ d.clk.pw = 4 then wakeBy 2 d else d
/-- Exit completes once every domain is ON and, from DEEP, start-up has ended. -/
def exitDone (d : Dev) : Dev :=
  if d.clk.pw = 2 && ((List.range 15).all fun m => domainState d m = 0 || gatedOff d.clk m)
      && (d.clk.lastState ≠ 2 || decide (5 ≤ d.clk.stage) || d.clk.stFailed) then
    pulse 0x041 (updClk (fun c => { c with pw := 0 }) d)
  else d

/-! ## HBMC clock gate (R365) -/

/-- No enabled entry of the HBM region table. -/
def noRegions (d : Dev) : Bool := (hbmEntries d).isEmpty
def hbmcGate (on : Bool) (d : Dev) : Dev := updClk (fun c => { c with gate := setBit c.gate 6 on }) d
/-- A shut-down is complete once the four domains are OFF. -/
def hbmcDown (d : Dev) : Dev :=
  if d.clk.hbmcStopping && [4, 5, 6, 7].all (fun m => domainState d m = 2) && !d.clk.hbmcRestart then
    updClk (fun c => { c with hbmcStopping := false }) d
  else d
/-- A write of HBMC RUN_EN; in a power state that holds the stacks off they wake with its exit, and a shut-down finds them OFF already. -/
def writeHbmc (on : Bool) (d : Dev) : Dev :=
  let cur := bit d.clk.gate 6
  if on then
    if d.clk.hbmcStopping then
      let held (d : Dev) (m : Nat) : Dev := if domainState d m = 1 then setDomain m 1 true d else d
      [4, 5, 6, 7].foldl held (updClk (fun c => { c with hbmcRestart := true }) d)
    else if cur then d
    else
      let d := hbmcGate true d
      if d.clk.pw = 0 ∨ d.clk.pw = 2 then [4, 5, 6, 7].foldl (fun d m => enableDomain m d) d else d
  else if cur && d.run.st = .idle && noRegions d then
    hbmcDown ([4, 5, 6, 7].foldl (fun d m => absorb m d) (updClk (fun c => { c with hbmcStopping := true }) (hbmcGate false d)))
  else d
/-- The shut-down is complete once the four domains are OFF; a held enable is applied. -/
def hbmcSettle (d : Dev) : Dev :=
  if d.clk.hbmcStopping && [4, 5, 6, 7].all (fun m => domainState d m = 2) then
    let again := d.clk.hbmcRestart
    let d := updClk (fun c => { c with hbmcStopping := false, hbmcRestart := false }) d
    if again then writeHbmc true d else d
  else d
/-- CLK_GATE: SVC and NOC SLEEP_EN, HBMC RUN_EN, KEEP SLEEP_EN, TSC DEEP_EN. -/
def writeGate (v : W64) (d : Dev) : Dev :=
  let d := updClk (fun c => { c with gate := maskW 0x4412 c.gate v }) d
  if bit v 6 = bit d.clk.gate 6 && !d.clk.hbmcStopping then d else writeHbmc (bit v 6) d

/-! ## Thermos (R362 to R366) -/

/-- WARN_C and THROTTLE_C as they act (Table 17.10), in 1/16 °C. -/
def warnAt (t : Thermos) : Int := 16 * (t.warnC : Int)
def throttleAt (t : Thermos) : Int := 16 * (min t.throttleC 105 : Nat)
/-- Some die's hottest junction, as last read, is at or above a temperature. -/
def junctionAt (t : Thermos) (x : Int) : Bool := (List.range 4).any fun i => decide (x ≤ (tget (0, 0, 0) t.rails i).2.2.toInt)
/-- The readings of a tick. -/
def readRails (r : ThermosReading) (d : Dev) : Dev :=
  let rails := [r.rail0, r.rail1, r.rail2, r.rail3].zipIdx
  updTh (fun t => { t with
    rails := rails.foldl (fun s (x, i) => tset (0, 0, 0) s i (x.ioutA, x.voutMv, x.temp)) t.rails
    powerW := rails.foldl (fun n (x, _) => n + x.poutW) r.hubW
    hubTemp := r.hubTemp, hbmTemp := r.hbmTemp
    warn := rails.any fun (x, _) => decide (warnAt t ≤ x.temp.toInt) }) d
/-- The wear cap (R364). -/
def capWear (d : Dev) : Dev := if wearLimit < d.th.wearSeconds then updTh (fun t => { t with wearCapped := true }) d else d
/-- A 1 ms tick of Thermos, while its clock runs; the milliseconds above 0.80 V add up to the ledger's seconds. SLEEP keeps its rails at
0.60 V (Table 17.4). -/
def thermosTick (r : ThermosReading) (d : Dev) : Dev :=
  if !nocOn d.clk then d
  else
    let d := readRails r d
    let ms := d.th.aboveFor + b2n (decide (800 < d.th.setMv))
    let d := updTh (fun t => { t with aboveFor := ms % 1000, wearSeconds := (t.wearSeconds + ms / 1000) % 2 ^ 32 }) d
    noteNow (if d.clk.pw = 3 then capWear d else stepRails (capWear d))
/-- What Thermos does of itself: nothing while its clock stands. -/
def thermosRuns (f : Dev → Dev) (d : Dev) : Dev := if nocOn d.clk then f d else d
/-- A throttle latches with a junction at THROTTLE_C. -/
def latchThrottle (d : Dev) : Dev :=
  if d.th.throttling || !junctionAt d.th (throttleAt d.th) then d
  else noteLimit (updTh (fun t => { t with throttling := true, throttles := t.throttles + 1 }) d)
/-- The latch clears with the hottest junction below 85 °C. -/
def clearThrottle (d : Dev) : Dev :=
  if junctionAt d.th (16 * 85) then d else updTh (fun t => { t with throttling := false }) d
/-- A junction crosses WARN_C. -/
def warnJunction (d : Dev) : Dev := updTh (fun t => { t with warn := junctionAt t (warnAt t) }) d
/-- A 10 ms step under a latched throttle. -/
def throttleStep (d : Dev) : Dev :=
  if d.th.throttling && decide (powerLimit d.th < d.th.powerW) then
    let d := setRails (max 600 (d.th.setMv - 25)) d
    { d with run := { d.run with paceThermal := true } }
  else d
/-- 115 °C. -/
def thermalTrip (d : Dev) : Dev :=
  let d := setRails (levelMv d.th (idleMv d.th)) (updTh (fun t => { t with reason := 0x0921 }) d)
  faultNow 0x0921 (logEntry 0x0921 none { d with pins := { d.pins with thermtrip := true } })
/-- A rail fault of a die; its log entry's word 2 names the die. -/
def railFault (die : Nat) (d : Dev) : Dev :=
  let d := updTh (fun t => { t with railFault := true, reason := 0x0920 }) d
  faultNow 0x0920 (logEntry 0x0920 (some (w64 die, 0)) d)
/-- The ledger is written, its word moving on; not while the Keep store's clock is gated (R348). -/
def writeLedger (d : Dev) : Dev :=
  if !keepOn d.clk then d
  else
    let n := (d.keep.ledgerWord + 1) % 1024
    capWear { d with keep := { d.keep with ledger := tset 0 d.keep.ledger n (w64 d.th.wearSeconds), ledgerWord := n } }

/-! ## Registers (Tables 17.10 and 18.6) -/

/-- PIN_STATUS (Table 18.6). -/
def alertPin (q : Irq) (d : Dev) : Bool :=
  d.pins.pwrOk && if fromCells d then d.pins.cellAlert else !jtagTest d && alertLow q
def tripPin (d : Dev) : Bool := if fromCells d then d.pins.cellTrip else !jtagTest d && d.pins.thermtrip
def pinStatus (q : Irq) (d : Dev) : W64 :=
  word [fb 15 (jtagTest d), fb 14 (tripPin d), fb 13 (alertPin q d), fb 12 (!d.pins.wakeLow), fb 11 (!d.run.haltLow)]
def writeTioBank (b : Nat) (v : W64) (d : Dev) : Dev :=
  let x : BitVec 3 := BitVec.ofNat 3 (fld v 7 5)
  if d.run.st = .running then { d with tio := { d.tio with driveNew := d.tio.driveNew ++ [(b, x)] } }
  else { d with tio := { d.tio with
    drive := tset 0b010 d.tio.drive b x, driveNew := d.tio.driveNew.filter (·.1 ≠ b) } }
/-- The written settings show at once; they act at the next order 5 (R371). -/
def tioBankWord (t : Tio) (b : Nat) : W64 :=
  let x := ((findLast? (fun e => e.1 = b) t.driveNew).map (·.2)).getD (driveOf t b)
  word [(5, 3, x.toNat), (0, 2, (vddioOf t b).toNat)]
/-- PWR_CTRL: RESET_KEY by the manager seat outside a long operation, else REQ. -/
def writePwrCtrl (m : Master) (v : W64) (q : Irq) (d : Dev) : Irq × Dev :=
  if fld v 63 56 = 0xA5 ∧ m = .seat .manager ∧ !longOp d then resetAll false false d
  else match fld v 1 0 with
    | 1 => (q, requestPower 1 d)
    | 2 => (q, requestPower 2 d)
    | _ => (q, d)
def writeThermosCfg (v : W64) (d : Dev) : Dev :=
  updTh (fun t => { t with limitW := fld v 63 48, maxMv := fld v 47 36, idleMv := fld v 35 24
                           warnC := fld v 23 16, throttleC := fld v 15 8 }) d
/-- A write to the block by an allowed seat. -/
def clkRegWrite (m : Master) (off : Nat) (v : W64) (q : Irq) (d : Dev) : Irq × Dev :=
  match off with
  | 0x00 => (q, if bit v 0 then useXtal d else d)
  | 0x08 => (q, writeClkStatus v d)
  | 0x10 => (q, writeGate v d)
  | 0x20 => (q, updClk (fun c => { c with tscNew := some v.toNat }) d)
  | 0x100 => writePwrCtrl m v q d
  | 0x108 => (q, updClk (fun c => { c with sleepAborted := c.sleepAborted && !bit v 4 }) d)
  | 0x110 => (q, updClk (fun c => { c with timerUs := fld v 35 4, wakeEn := v.setWidth 4 }) d)
  | 0x200 => (q, writeThermosCfg v d)
  | 0x208 => (q, updTh (fun t => { t with railFault := t.railFault && !bit v 4 }) d)
  | 0x240 => (q, updTh (fun t => { t with pmbus := v &&& 0xFFF_FFFF }) d)
  | _ => (q, if 0x1000 ≤ off ∧ off < 0x1040 then writeTioBank ((off - 0x1000) / 8) v d else d)
def stageWord (c : Clk) : W64 :=
  word [(48, 16, c.stReason), (40, 8, c.stDetail), fb 7 c.fallback, fb 6 c.slot, fb 4 c.stFailed, (0, 4, c.stage)]
def clkStatusWord (c : Clk) : W64 :=
  word [(32, 32, c.switches), fb 7 c.switchRefused, fb 6 c.bothLost, fb 5 c.pllLost, fb 4 c.xtalLost, fb 3 c.failed
       , fb 2 c.xtalOk, fb 1 c.ioscReady, fb 0 c.source]
def pwrStatusWord (c : Clk) : W64 :=
  word [(48, 16, c.pwReason), (8, 4, c.lastWake), fb 4 c.sleepAborted, (2, 2, c.lastState), (0, 2, c.pw)]
def thermosStatusWord (t : Thermos) : W64 :=
  word [(48, 16, t.reason), (36, 12, t.setMv), (20, 16, t.powerW), fb 4 t.railFault, fb 3 t.wearCapped
       , fb 2 t.throttling, fb 1 t.throttling]
/-- The registers of the block, as they read. -/
def clkRegRead (q : Irq) (d : Dev) (off : Nat) : W64 :=
  let c := d.clk
  let t := d.th
  match off with
  | 0x08 => clkStatusWord c
  | 0x10 => setBit c.gate 63 c.hbmcRestart
  | 0x18 => w64 c.tsc
  | 0x28 => word [(32, 32, c.tscSeq), fb 0 c.approx]
  | 0x30 => stageWord c
  | 0x108 => pwrStatusWord c
  | 0x110 => word [(4, 32, c.timerUs), (0, 4, c.wakeEn.toNat)]
  | 0x200 => word [(48, 16, t.limitW), (36, 12, t.maxMv), (24, 12, t.idleMv), (16, 8, t.warnC), (8, 8, t.throttleC)]
  | 0x208 => thermosStatusWord t
  | 0x230 => w64 t.wearSeconds
  | 0x238 => t.throttles
  | 0x240 => t.pmbus
  | 0x1040 => pinStatus q d
  | _ =>
    if 0x210 ≤ off ∧ off < 0x230 then
      let (a, mv, x) := tget (0, 0, 0) t.rails ((off - 0x210) / 8)
      word [(48, 16, a), (32, 16, mv), (16, 16, x.toNat)]
    else if 0x1000 ≤ off ∧ off < 0x1040 then tioBankWord d.tio ((off - 0x1000) / 8)
    else 0

/-! ## Commands -/

def execClockSourceFailure (trip : ClockTrip) (s : State) : Host.Outcome State Fault Refusal := lift (withLinks (clockTrip trip)) s
def execClockFailStopTimeout (s : State) : Host.Outcome State Fault Refusal := lift failTimeout s
def execIoscReady (s : State) : Host.Outcome State Fault Refusal := lift (withLinks ioscBack) s
def execXtalOk (s : State) : Host.Outcome State Fault Refusal := lift (updClk fun c => { c with xtalOk := true }) s
def execUseXtal (m : Master) (s : State) : Host.Outcome State Fault Refusal := lift (clkWrite m 0x00 1 useXtal) s
def execPllRelock (s : State) : Host.Outcome State Fault Refusal := lift pllBack s
/-- The straps become MODID. -/
def powerOn (straps : BitVec 6) (d : Dev) : Irq × Dev := resetAll true false { d with fuse := { d.fuse with modid := straps } }
def execPowerOnReset (straps : BitVec 6) (s : State) : Host.Outcome State Fault Refusal := liftAll (fun _ d => powerOn straps d) s
def execResetN (ns : Nat) (s : State) : Host.Outcome State Fault Refusal :=
  liftAll (fun q d => if 1000 ≤ ns then resetAll false false d else (q, d)) s
/-- A write of RESET_KEY that passes the gate. -/
def writeKey (m : Master) (v : W64) (q : Irq) (d : Dev) : Irq × Dev :=
  let (g, d) := enter m (aClocks 0x100) d
  if g = 0 ∧ clkWriter m then writePwrCtrl m v q d
  else (q, if g = 20 then holdAccess (.posted m) m (aClocks 0x100) (some (v, 255)) PinEnv.none d
    else if failed g then seatError m false d else if g = 18 then answerGate g d else d)
def execResetKey (m : Master) (s : State) : Host.Outcome State Fault Refusal := liftAll (writeKey m (word [(56, 8, 0xA5)])) s
def execBootWatchdog (s : State) : Host.Outcome State Fault Refusal := liftAll bootWatchdog s
def execStartupStage (r : StageResult) (s : State) : Host.Outcome State Fault Refusal := liftAll (startupStage r) s
/-- REFCLK_L of a group appears: it is calibrated (R355). -/
def groupAppears (g : Nat) (d : Dev) : Dev :=
  if d.clk.stage < 5 then d
  else updClk (fun c => { c with refclk := setBit c.refclk g true, calibrated := setBit c.calibrated g true }) d
def execRefclkLAppears (group : Fin 16) (s : State) : Host.Outcome State Fault Refusal := lift (groupAppears group) s
def execTscSet (m : Master) (v : W64) (s : State) : Host.Outcome State Fault Refusal :=
  lift (clkWrite m 0x20 v (updClk fun c => { c with tscNew := some v.toNat })) s
def execPwrCtrlSleep (m : Master) (s : State) : Host.Outcome State Fault Refusal := lift (clkWrite m 0x100 1 (requestPower 1)) s
def execPwrCtrlDeep (m : Master) (s : State) : Host.Outcome State Fault Refusal := lift (clkWrite m 0x100 2 (requestPower 2)) s
def execPowerEntryStart (s : State) : Host.Outcome State Fault Refusal := lift entryStart s
def execPowerEntryDone (s : State) : Host.Outcome State Fault Refusal := lift (withLinks entryDone) s
def execWake (source : WakeSource) (s : State) : Host.Outcome State Fault Refusal := lift (wakeBy (wakeNo source)) s
def execWakeN (ns : Nat) (s : State) : Host.Outcome State Fault Refusal := lift (wakePin ns) s
def execWakeTimer (s : State) : Host.Outcome State Fault Refusal := lift timerWake s
def execPowerExitDone (s : State) : Host.Outcome State Fault Refusal := lift exitDone s
def execDomainOff (dom : Fin 16) (s : State) : Host.Outcome State Fault Refusal := lift (fun d => hbmcSettle (domainOffDone dom d)) s
def execThermosTick (r : ThermosReading) (s : State) : Host.Outcome State Fault Refusal := lift (thermosTick r) s
def execThrottle (s : State) : Host.Outcome State Fault Refusal := lift (thermosRuns latchThrottle) s
def execThrottleStep (s : State) : Host.Outcome State Fault Refusal := lift (thermosRuns throttleStep) s
def execThrottleClear (s : State) : Host.Outcome State Fault Refusal := lift (thermosRuns clearThrottle) s
def execTempWarning (s : State) : Host.Outcome State Fault Refusal := lift (thermosRuns warnJunction) s
def execThermalTrip (s : State) : Host.Outcome State Fault Refusal := lift thermalTrip s
def execRailFault (die : Fin 4) (s : State) : Host.Outcome State Fault Refusal := lift (railFault die) s
def execPmbAlert (faults : BitVec 4) (s : State) : Host.Outcome State Fault Refusal :=
  lift (fun d => (bitsOf 4 faults.toNat).foldl (fun d die => railFault die d) d) s
def execWearLedgerWrite (s : State) : Host.Outcome State Fault Refusal := lift writeLedger s
def execHbmcRunEnWrite (m : Master) (enable : Bool) (s : State) : Host.Outcome State Fault Refusal :=
  lift (fun d => clkWrite m 0x10 (setBit d.clk.gate 6 enable) (writeHbmc enable) d) s

end Sys2Proof.Machine
end

