-- ==== Sys2Proof/Machine/Pins.lean ====
section
/-! DEFINITION. Board pins (chapter 18): PWR_OK, the TIO supplies, the JTAG instructions, the SPI write-status frame. -/

namespace Sys2Proof.Machine

/-! ## Power pins (R370, R373) -/

/-- PWR_OK falls: TIO pins high-Z, lanes idle, ALERT_N released. -/
def pwrFall (d : Dev) : Dev :=
  let d := idlePins d
  { d with pins := { d.pins with pwrOk := false } }

/-- A supply in range. -/
def validSupply (v : BitVec 2) : Bool := v = 1 || v = 2
/-- A bank's sensed supply changes: each change into a supply that is absent or out of range is logged, under a code that the spec does
not give (log entry 6); after a return its pins wait for the next order 5. -/
def supplyChange (b : Nat) (v : BitVec 2) (d : Dev) : Dev :=
  let old := vddioOf d.tio b
  let d := { d with tio := { d.tio with vddio := tset 1 d.tio.vddio b v } }
  if validSupply v = validSupply old then d
  else if validSupply v then { d with tio := { d.tio with wait := setBit d.tio.wait b true } }
  else logOpen d

/-! ## SPI frames (R376) -/

/-- The command that the bytes of a frame spell: none for one cut short before its last byte, or of another command byte. -/
def spiFrame (env : PinEnv) : List Byte → Option Instr
  | [] => none
  | c :: rest =>
    let a := natOfBE (rest.take 5)
    if c = 0x05 then some .spiWriteStatus
    else if c = 0x03 ∧ 5 ≤ rest.length then some (.spiRead a)
    else if c = 0x02 ∧ 13 ≤ rest.length then some (.spiWrite a (w64 (natOf ((rest.drop 5).take 8))) env)
    else none

/-! ## JTAG (R378) -/

/-- The instruction that an opcode of the TAP loads. -/
def jtagOpcode (op : Byte) : Instr :=
  match op.toNat with
  | 0 => .extest
  | 1 => .idcode
  | 2 => .samplePreload
  | 3 => .extestPulse
  | 4 => .extestTrain
  | 5 => .highz
  | 6 => .clamp
  | _ => .bypass

/-- IDCODE. -/
def idcodeWord (f : Fuse) : W64 :=
  word [(28, 4, f.stepping), (12, 16, if f.zpe393 then 0x3930 else 0x5240), (1, 11, 0x35A), (0, 1, 1)]
def loadJtag (j : Jtag) (d : Dev) : Dev := followPins { d with pins := { d.pins with jtag := j } }
/-- A test-control instruction loads as BYPASS outside BOOT and IDLE. -/
def loadTest (j : Jtag) (d : Dev) : Dev := loadJtag (if d.run.st = .boot ∨ d.run.st = .idle then j else .bypass) d
/-- SAMPLE/PRELOAD: the cells of the TIO lands sample the levels, an open bit where the module does not drive; the bits that the tester
shifts in are open, and so is what the cells of the other signal lands take (log entry 101). -/
def sampleCells (d : Dev) : Dev :=
  let d := loadJtag .samplePreload d
  let m := driving d
  let (x, d) := takeFreePins d
  let (o, d) := takeFreePins d
  let (e, d) := takeFreePins d
  let (a, d) := takeFreeBit d
  let (b, d) := takeFreeBit d
  let (li, d) := openWords 68 d
  let (lo, d) := openWords 68 d
  let (le, d) := openWords 68 d
  { d with pins := { d.pins with
    cellIn := (d.tio.out &&& m) ||| (x &&& ~~~m), cellOut := o, cellEn := e, cellAlert := a, cellTrip := b
    landIn := li, landOut := lo, landEn := le } }
/-- What one of the other signal lands shows: its function's signal, nothing, or what its cell drives, on an AC-coupled one under
EXTEST_PULSE and EXTEST_TRAIN a pulse or a train of them (IEEE 1149.6). -/
inductive LandSignal
  | functional | off
  | level (b : Bool)
  | pulse (b : Bool)
  | train (b : Bool)
  deriving DecidableEq, Repr
/-- The lands of the lanes, the pair lanes and PCIe, whose cells are AC-coupled; those of the lane references lie between them. -/
def acLand (i : Nat) : Bool := decide (i < 4128) || (decide (4160 ≤ i) && decide (i < 4262))
def landBit (l : List W64) (i : Nat) : Bool := bit (l.getD (i / 64) 0) (i % 64)
def landSignal (d : Dev) (i : Nat) : LandSignal :=
  if !jtagTest d then .functional
  else if !fromCells d || !landBit d.pins.landEn i then .off
  else
    let b := landBit d.pins.landOut i
    match d.pins.jtag with
    | .extestPulse => if acLand i then .pulse b else .level b
    | .extestTrain => if acLand i then .train b else .level b
    | _ => .level b
/-- IDCODE selected: TDO shows the word. -/
def selectIdcode (d : Dev) : Dev := answer 0 (idcodeWord d.fuse) (loadJtag .idcode d)

/-! ## Commands -/

def execPwrOkFall (s : State) : Host.Outcome State Fault Refusal := lift (withLinks pwrFall) s
def execTioVddioChange (bank : Fin 8) (vddio : BitVec 2) (s : State) : Host.Outcome State Fault Refusal :=
  lift (supplyChange bank vddio) s
def execExtest (s : State) : Host.Outcome State Fault Refusal := lift (loadTest .extest) s
def execIdcode (s : State) : Host.Outcome State Fault Refusal := lift selectIdcode s
def execSamplePreload (s : State) : Host.Outcome State Fault Refusal := lift sampleCells s
def execExtestPulse (s : State) : Host.Outcome State Fault Refusal := lift (loadTest .extestPulse) s
def execExtestTrain (s : State) : Host.Outcome State Fault Refusal := lift (loadTest .extestTrain) s
def execHighz (s : State) : Host.Outcome State Fault Refusal := lift (loadTest .highz) s
def execClamp (s : State) : Host.Outcome State Fault Refusal := lift (loadTest .clamp) s
def execBypass (s : State) : Host.Outcome State Fault Refusal := lift (loadJtag .bypass) s
def execTapReset (s : State) : Host.Outcome State Fault Refusal := lift (fun d => selectIdcode d) s
/-- 0x05: 0xA5, then the status byte of the last write; 0x00 while that write has not completed, or the port's clock is stopped. The port is
served from the end of the clocks stage, and not in DEEP (R358, R376). -/
def writeStatus (d : Dev) : Dev :=
  if d.clk.pw = 4 ∨ d.clk.stage < 1 then answerGate 18 d
  else if d.host.spiOpen || !nocOn d.clk then { d with host := { d.host with answer := { Answer.reset with shifted := [0] } } }
  else { d with host := { d.host with answer := { Answer.reset with
    data := w64 (0xA5 + 256 * d.host.spiStatus), shifted := [0xA5, BitVec.ofNat 8 d.host.spiStatus] } } }
def execSpiWriteStatus (s : State) : Host.Outcome State Fault Refusal := lift writeStatus s

end Sys2Proof.Machine
end

