-- ==== Sys2Proof/Machine/RunRegs.lean ====
section
/-! DEFINITION. The registers of the run-control block and its report window, as they read and as writes act (Tables 4.8 to 4.11,
5.11 to 5.14, 7.7 to 7.10, 8.6 to 8.10, 13.5 and 13.6). -/

namespace Sys2Proof.Machine

/-! ## MODULE_ID (Table 0.4) -/

/-- MODULE_ID. -/
def moduleId (f : Fuse) : W64 :=
  word [(24, 8, 0xA4), (16, 8, if f.zpe393 then 2 else 1), (12, 4, f.bin), (8, 4, f.stepping), (0, 6, f.modid.toNat)]

/-! ## Reads -/

/-- RUN_CTRL. -/
def runCtrlWord (r : Run) : W64 :=
  let on := r.st = .releasing || r.st = .running || r.st = .stopping || r.restart
  word [fb 4 r.mode, fb 3 r.stopAtEn, fb 1 r.stopBit, fb 0 on]
/-- RUN_STATUS. -/
def runStatusWord (r : Run) : W64 :=
  word [fb 35 r.lateStop, fb 34 r.cancelled, fb 33 r.restart, fb 32 r.midCycle, (28, 4, holdCode r), (0, 4, stCode r.st)]
def stopCauseWord (r : Run) : W64 := word [(48, 16, r.reason), (32, 16, r.set.toNat), (0, 4, r.cause)]
/-- Registers at 0x0100 to 0x03FF. -/
def runRead (r : Run) (off : Nat) : W64 :=
  match off with
  | 0x100 => runCtrlWord r
  | 0x108 => w64 r.count
  | 0x110 => w64 r.stopAt
  | 0x118 => runStatusWord r
  | 0x120 => w64 r.committed
  | 0x128 => stopCauseWord r
  | 0x130 => word [(48, 16, r.checkReason), (40, 8, r.checkItem), (0, 32, r.checkDetail)]
  | 0x138 => word [(48, 16, r.haltCount), (39, 9, r.haltVtile), (35, 4, r.haltCluster), (29, 6, r.haltBp), (19, 10, r.haltStep)]
  | 0x140 => word [(48, 16, r.fault)]
  | 0x148 => word [(0, 48, r.progress)]
  | 0x200 => word [fb 31 r.wdogAction, (0, 20, r.wdogMs)]
  | 0x208 => word [fb 32 r.stall, fb 31 r.overflow, (0, 14, r.waiting)]
  | 0x210 => word [fb 63 r.await.isSome, (48, 10, r.await.getD 0), (0, 14, r.barrierCount)]
  | 0x218 => w64 r.wdogCycle
  | 0x300 => w64 r.paceTarget
  | 0x308 => w64 r.paceCap
  | 0x310 => word [(32, 32, (paceShown r).1), (0, 4, (paceShown r).2)]
  | 0x318 => r.paceCapWait
  | _ => 0
/-- Registers at 0x0400 to 0x06FF. -/
def memRead (d : Dev) (off : Nat) : W64 :=
  match off with
  | 0x400 => word [fb 1 d.exch.contBit, fb 0 d.exch.lateBit]
  | 0x408 => d.exch.place
  | 0x410 => w64 d.exch.cycle
  | 0x418 => d.exch.barrierWait
  | 0x420 => w64 d.exch.lastLink
  | 0x500 => word [fb 1 d.mem.regionRefused, fb 0 d.mem.bounds]
  | 0x508 => d.mem.place
  | 0x510 => w64 d.mem.addr
  | 0x518 => w64 d.mem.cycle
  | 0x520 => d.mem.hbmRefused
  | 0x528 => d.mem.hostWrites
  | _ =>
    if off < 0x600 ∨ 0x700 ≤ off then 0
    else tget 0 (if off % 16 = 0 then d.mem.regionBase else d.mem.regionSize) ((off - 0x600) / 16)
/-- LOAD_STATUS (Table 7.9). -/
def loadStatusWord (L : Loader) : W64 :=
  word [(48, 16, L.reason), (34, 2, L.path), fb 33 L.statusPartial, fb 32 L.statusSigned, fb 5 L.abortLate, (3, 2, L.phaseShown)
       , fb 2 (L.phase ≠ .none), fb 1 L.refused, fb 0 L.done]
def regionCode : RegionSt → Nat
  | .active => 0
  | .isolated => 1
  | .torn => 2
  | .reloading => 3
/-- REGION_STATE (Table 7.10). -/
def regionWord (d : Dev) (r : Nat) : W64 :=
  let R := regionOf d r
  word [(40, 8, R.vregion), (32, 8, min 0xFF (armedCells d r)), (16, 16, R.tornReason), fb 15 (regionUsable d.fuse r), fb 14 R.placed
       , fb 13 R.rejoin, fb 12 R.isolatePend, fb 11 R.tornPend, (0, 2, regionCode R.st)]
/-- Registers at 0x0800 to 0x0BFF. -/
def loadRead (d : Dev) (off : Nat) : W64 :=
  let L := d.ld
  let M := d.mordant
  match off with
  | 0x800 => loadStatusWord L
  | 0x808 => L.detail
  | 0x810 => word [(32, 32, L.expected), (0, 32, L.framesDone)]
  | 0x818 => L.buildId
  | 0x820 => w64 L.timeoutMs
  | 0x828 => word [(20, 2, L.stage), (0, 20, L.gap)]
  | 0x830 => word [fb 1 L.forward, fb 0 L.accept]
  | 0x838 => streamStatus L
  | 0x840 => L.strBytes
  | 0xB00 => word [(38, 10, M.tile), fb 32 M.fail, (0, 32, M.sweeps)]
  | 0xB08 => M.corrected
  | 0xB10 => M.failPlace
  | 0xB18 => w64 M.failCycle
  | 0xB20 => w64 M.cleanCycle
  | 0xB28 => M.failed
  | _ =>
    if off < 0x900 ∨ 0xB00 ≤ off then 0
    else if off % 16 = 0 then regionWord d ((off - 0x900) / 16) else w64 (regionOf d ((off - 0x900) / 16)).held
/-- PAIR_STATUS (Table 13.6). -/
def pairStatusWord (d : Dev) : W64 :=
  let P := d.pair
  word [(48, 16, P.reason), (42, 6, P.twinModid), (32, 4, P.twinState), fb 7 P.detached, fb 6 P.twinDetached, fb 5 P.twinGone
       , fb 4 P.twinAlive, (0, 2, linkState d 1024)]
/-- Registers at 0x0C00 to 0x13FF. -/
def sysRead (d : Dev) (off : Nat) : W64 :=
  let Y := d.sys
  let P := d.pair
  match off with
  | 0xC00 => word [(32, 16, Y.margin), (8, 6, Y.diameter), fb 0 Y.master]
  | 0xC10 => word [(48, 16, Y.reason), fb 2 Y.planDone, fb 1 Y.lost]
  | 0xC18 => word [(48, 10, Y.lostLane), (8, 6, Y.lostModid)]
  | 0xC20 => w64 Y.lostCycle
  | 0xC28 => w64 Y.planStop
  | 0xC30 => w64 Y.planRewind
  | 0xC40 => word [(8, 5, P.mint), fb 2 P.relayAny, fb 1 P.mirror, fb 0 P.enable]
  | 0xC50 => pairStatusWord d
  | 0xC58 => P.hbMissed
  | 0xC60 => w64 P.mirrorOut
  | 0xC68 => w64 P.mirrorIn
  | 0xC70 => P.mirrorSkipped
  | 0xC78 => P.relayed
  | 0xC80 => P.absorbed
  | _ =>
    if off < 0x1000 ∨ 0x1400 ≤ off then 0
    else tget 0 (if off % 16 = 0 then Y.viewCommitted else Y.viewHead) ((off - 0x1000) / 16)
/-- A register of the run-control block, as it reads. -/
def runRegRead (d : Dev) (off : Nat) : W64 :=
  if off = 0 then moduleId d.fuse
  else if off < 0x400 then runRead d.run off
  else if off < 0x700 then memRead d off
  else if off < 0xC00 then loadRead d off
  else sysRead d off
/-- The report window. -/
def reportRead (d : Dev) (off : Nat) : W64 :=
  let e := d.run.report.getD (off / 16) (0, 0)
  if off % 16 = 0 then e.1 else e.2

/-! ## Writes -/

def updRun (f : Run → Run) (d : Dev) : Dev := { d with run := f d.run }
/-- RUN_CTRL: the mode fields, then STOP before RUN_ENABLE (R179), then FORCE_STOP. -/
def writeRunCtrl (v : W64) (env : PinEnv) (d : Dev) : Dev :=
  let d := writeRunMode (bit v 4) (bit v 3) d
  let d := if bit v 1 then stopRun d else d
  let d := if bit v 0 then enableRun env d else d
  if bit v 2 then forceStop 1 d else d
/-- Registers of chapters 8, 4 and 5. -/
def writeRunRegs (m : Master) (off : Nat) (v : W64) (env : PinEnv) (d : Dev) : Dev :=
  match off with
  | 0x100 => writeRunCtrl v env d
  | 0x108 => updRun (fun r => { r with count := fld v 47 0 }) d
  | 0x110 => writeStopAt v d
  | 0x118 => updRun (fun r => { r with lateStop := r.lateStop && !bit v 35, cancelled := r.cancelled && !bit v 34 }) d
  | 0x200 => updRun (fun r => { r with wdogAction := bit v 31, wdogMs := fld v 19 0 }) d
  | 0x208 => updRun (fun r => { r with stall := r.stall && !bit v 32 }) d
  | 0x300 => updRun (fun r => { r with paceTarget := fld v 31 0 }) d
  | 0x308 => updRun (fun r => { r with paceCap := fld v 31 0 }) d
  | 0x400 => { d with exch := { d.exch with contBit := d.exch.contBit && !bit v 1, lateBit := d.exch.lateBit && !bit v 0 } }
  | 0x500 => { d with mem := { d.mem with regionRefused := d.mem.regionRefused && !bit v 1, bounds := d.mem.bounds && !bit v 0 } }
  | _ => if 0x600 ≤ off ∧ off < 0x700 ∧ byOneOf m [.manager] then regionTableWrite ((off - 0x600) / 16) (off % 16 ≠ 0) v d else d
/-- Registers of chapter 7: RW fields by the manager and the board seat. -/
def writeLoadRegs (m : Master) (off : Nat) (v : W64) (d : Dev) : Dev :=
  let rw (f : Loader → Loader) : Dev := if byOneOf m boardSeats then updLd f d else d
  match off with
  | 0x800 => updLd (fun L => { L with abortLate := L.abortLate && !bit v 5 }) d
  | 0x820 => rw fun L => { L with timeoutMs := fld v 31 0 }
  | 0x828 => rw fun L => { L with gap := fld v 19 0 }
  | 0x830 => rw fun L => { L with forward := bit v 1, accept := bit v 0 }
  | 0xB00 => { d with mordant := { d.mordant with fail := d.mordant.fail && !bit v 32 } }
  | _ => d
/-- SYS_CTRL: its bits in rising order. -/
def writeSysCtrl (v : W64) (d : Dev) : Dev :=
  let d := if bit v 0 then planStop d else d
  let d := if bit v 1 then planRewind d else d
  if bit v 2 then settleRun d else d
def writeSysCfg (v : W64) (d : Dev) : Dev :=
  { d with sys := { d.sys with margin := fld v 47 32, diameter := fld v 13 8, master := bit v 0 } }
/-- Registers of chapter 13: RW and WO fields by the manager and the board seat. -/
def writeSysRegs (m : Master) (off : Nat) (v : W64) (d : Dev) : Dev :=
  let ok := byOneOf m boardSeats
  match off with
  | 0xC10 => { d with sys := { d.sys with planDone := d.sys.planDone && !bit v 2, lost := d.sys.lost && !bit v 1 } }
  | 0xC50 => updPair (fun P => { P with twinGone := P.twinGone && !bit v 5 }) d
  | 0xC00 => if ok then writeSysCfg v d else d
  | 0xC08 => if ok then writeSysCtrl v d else d
  | 0xC40 => if ok then writePairCfg v d else d
  | 0xC48 => if ok && bit v 0 then (startDetach d).2 else d
  | _ =>
    if !ok || off < 0x1000 || 0x1400 ≤ off then d
    else if off % 16 = 0 then writeViewC ((off - 0x1000) / 16) v d else writeViewH ((off - 0x1000) / 16) v d
/-- A write to the run-control block. -/
def runRegWrite (m : Master) (off : Nat) (v : W64) (env : PinEnv) (d : Dev) : Dev :=
  if off < 0x700 then writeRunRegs m off v env d
  else if off < 0xC00 then writeLoadRegs m off v d
  else writeSysRegs m off v d

end Sys2Proof.Machine
end

