-- ==== Sys2Proof/Machine/TileRegs.lean ====
section
/-! DEFINITION. The registers of a tile's control block (Tables 2.10 to 2.14, 4.8, 5.11 to 5.14) and of a lane block (Tables
12.10 to 12.12). -/

namespace Sys2Proof.Machine

/-! ## Tile control -/

/-- TILE_FABRIC_STATUS (Table 2.11). FULL_PASS shows on every tile with a virtual tile while the design cycle in progress is a
full pass, whatever the state of its region (log entry 86). -/
def tileStatusWord (d : Dev) (T : Tile) : W64 :=
  word [fb 31 T.placed, fb 30 (T.placed && cycleOpen d && d.run.fullPass), fb 29 T.eccFatal, (16, 9, T.vtile), (0, 6, T.ldiv)]
/-- CLUSTER_STATUS to CLUSTER_QUIET_COUNT (Tables 2.12 to 2.14). -/
def clusterRead (d : Dev) (p c reg : Nat) : W64 :=
  let (step, cause, b, det) := clusterStatus d p c
  match reg with
  | 0 => word [(32, 12, step), (16, 4, cause)]
  | 1 => word [(24, 6, b), (12, 12, det)]
  | 2 => (clusterOf (tileOf d p) c).evals
  | _ => (clusterOf (tileOf d p) c).quiets
/-- Counters at 0x1000 to 0x1108. -/
def tileCounter (T : Tile) (off : Nat) : W64 :=
  match off with
  | 0x1000 => T.tokensOut
  | 0x1008 => T.tokensIn
  | 0x1010 => T.marksOut
  | 0x1018 => T.late
  | 0x1020 => T.contention
  | 0x1028 => T.borderDropped
  | 0x1100 => T.fireFull
  | 0x1108 => T.memBounds
  | _ => 0
/-- BANK_OWNER (Table 5.12). -/
def ownerWord (T : Tile) (b : Nat) : W64 :=
  let B := bankOf T b
  word [fb 11 B.refused, fb 10 B.draining, (8, 2, ownerCode B.req), fb 5 (T.loaded && (mappedBanks T).contains b), (0, 2, ownerCode B.owner)]
/-- QCTX_STATE (Table 5.13). -/
def ctxStateWord (T : Tile) (q : Nat) : W64 :=
  let X := ctxOf T q
  word [fb 34 X.openPkt.isSome, fb 33 X.overrun, fb 32 X.underrun, (16, 7, (X.ents.filter fun e => e.avail && responds e.op).length)
       , (8, 7, (X.ents.filter fun e => !e.served).length), (0, 7, occupancy (ctxCfg T q).kind X)]
/-- A queue-context register but QCTX_STREAM: its offset in the block. -/
def ctxRead (T : Tile) (off : Nat) : W64 :=
  if off < 0x4000 then
    let q := (off - 0x2000) / 16
    if off % 16 = 0 then storeWord T kQSHAPE 16 (4 * q) &&& 0xF_1FC7 else ctxStateWord T q
  else if off < 0x6000 then w64 (ctxCfg T ((off - 0x5000) / 8)).base
  else w64 (ctxCfg T ((off - 0x6000) / 8)).words
/-- The queue-context registers. -/
def isCtxReg (off : Nat) : Bool := (decide (0x2000 ≤ off) && decide (off < 0x4000)) || (decide (0x5000 ≤ off) && decide (off < 0x8000))
/-- A register without a read effect, once its tile may be read. No address of a state slot is given (R23, R155), so none reads one; a
DUMP shows the slots (log entry 86). -/
def tileRead (d : Dev) (p off : Nat) : W64 :=
  let T := tileOf d p
  if off = 0 then tileStatusWord d T
  else if off = 8 then T.fullPasses
  else if off = 0x10 then T.eccCorrected
  else if off < 0x100 then 0
  else if off < 0x300 then clusterRead d p ((off - 0x100) / 32) (off % 32 / 8)
  else if off < 0x1140 then tileCounter T off
  else if off < 0x1180 then tget 0 T.conflict ((off - 0x1140) / 8)
  else if off < 0x1200 then ownerWord T ((off - 0x1180) / 8)
  else if off < 0x1280 then qbind T ((off - 0x1200) / 8) &&& 0x11F
  else if off < 0x1300 then shape T ((off - 0x1280) / 8)
  else if isCtxReg off then ctxRead T off
  else if 0x8000 ≤ off then tget 0 T.routes ((off - 0x8000) / 8)
  else if 0x4000 ≤ off then tget 0 T.markRoutes ((off - 0x4000) / 8)
  else 0
/-- A read of the block; the answer is `none` for an access-error response (R155). -/
def tileRegRead (m : Master) (p off : Nat) (d : Dev) : Option W64 × Dev :=
  if isCtxReg off && !ctxReady d p then (none, d)
  else if 0x7000 ≤ off ∧ off < 0x8000 then readStream m p ((off - 0x7000) / 8) d
  else (some (tileRead d p off), d)
/-- A write to the block. -/
def tileRegWrite (p off : Nat) (v : W64) (d : Dev) : Option W64 × Dev :=
  if isCtxReg off && !ctxReady d p then (none, d)
  else if 0x1180 ≤ off ∧ off < 0x1200 then (some 0, writeOwner p ((off - 0x1180) / 8) v d)
  else if 0x7000 ≤ off ∧ off < 0x8000 then writeStream p ((off - 0x7000) / 8) v d
  else if 0x2000 ≤ off ∧ off < 0x4000 ∧ off % 16 = 8 then
    (some 0, updCtx d p ((off - 0x2000) / 16) fun X =>
      { X with overrun := X.overrun && !bit v 33, underrun := X.underrun && !bit v 32 })
  else (some 0, d)

/-! ## Lanes and links -/

def laneCode : LaneSt → Nat
  | .down => 0
  | .training => 1
  | .locked => 2
  | .up => 3
  | .loopback => 4
  | .scan => 5
/-- LANE_STATUS (Table 12.11). -/
def laneStatusWord (d : Dev) (lane : Nat) : W64 :=
  let A := laneOf d lane
  let idx := match linkOfLane? d lane with
    | some l => lane - l
    | none => 0
  word [(32, 16, (BitVec.ofInt 16 A.ppm).toNat), fb 19 A.scanRefused, fb 18 A.loopRefused, fb 17 A.chkLocked
       , fb 16 (d.clk.refclk.getLsbD (groupOf (min lane 1024))), fb 15 A.signal, fb 14 A.inverted, fb 13 A.scanFromLoop, (4, 3, idx)
       , (0, 3, laneCode A.st)]
/-- A lane register. -/
def laneRead (d : Dev) (lane off : Nat) : W64 :=
  let A := laneOf d lane
  match off with
  | 0x00 => A.cfg
  | 0x08 => w64 A.loop
  | 0x10 => laneStatusWord d lane
  | 0x18 => A.syncErr
  | 0x20 => A.lockLoss
  | 0x40 => A.pat
  | 0x48 => A.patBits
  | 0x50 => A.patErrors
  | 0x60 => A.scan ||| word [fb 31 A.scanStart]
  | 0x68 => word [fb 63 A.scanDone, fb 62 A.scanInvalid, (0, 40, A.scanErrors)]
  | _ => 0
/-- A link register, in the lowest lane of an enabled link (Tables 12.12 and 4.8). -/
def linkRead (d : Dev) (l off : Nat) : W64 :=
  let E := linkOf d l
  match off with
  | 0x408 => word [fb 0 E.training]
  | 0x410 => word [(48, 16, E.reason), fb 42 E.restart, fb 41 E.inUse, fb 40 E.cfgRefused, (36, 4, E.version), (34, 2, E.rate), (16, 8, E.skew)
                  , (0, 2, linkState d l)]
  | 0x418 => E.partner
  | 0x420 => E.replays
  | 0x428 => E.crcErrors
  | 0x430 => E.retrains
  | 0x438 => E.retrainFails
  | 0x440 => E.creditStall
  | 0x448 => E.replayStall
  | 0x800 => E.tokensTx
  | 0x808 => E.tokensRx
  | 0x810 => E.marksTx
  | 0x818 => E.marksRx
  | 0x820 => w64 E.eocCycle
  | 0x828 => E.mismatch
  | 0x830 => E.unrouted
  | 0x838 => w64 E.earlyPeak
  | _ => 0
/-- A register of a lane block, as it reads; the exchange counters show whatever link the lane belongs to (R246). -/
def laneRegRead (d : Dev) (lane off : Nat) : W64 :=
  if off < 0x400 then laneRead d lane off
  else if off = 0x400 then linkCfg d lane
  else if cfgOn (linkCfg d lane) ∨ 0x800 ≤ off then linkRead d lane off
  else 0
/-- LINK_CTRL: DOWN, then TRAIN. -/
def writeLinkCtrl (l : Nat) (v : W64) (d : Dev) : Dev :=
  let d := if bit v 1 then downLink l d else d
  if bit v 0 then trainLink l d else d
/-- A write to a lane block; LINK_CFG of a pair lane stays as R280 gives it. Writes of other seats than
R268's are ignored. -/
def laneRegWrite (m : Master) (lane off : Nat) (v : W64) (d : Dev) : Dev :=
  if !laneWriter m then d
  else match off with
  | 0x00 => updLane d lane fun A => { A with cfg := maskW 0xFFFC 0 v }
  | 0x08 => writeLoop m lane v d
  | 0x10 => updLane d lane fun A => { A with scanRefused := A.scanRefused && !bit v 19, loopRefused := A.loopRefused && !bit v 18 }
  | 0x40 => writePat m lane v d
  | 0x60 => writeScan m lane v d
  | 0x400 => if lane < 1024 then writeLinkCfg m lane v d else d
  | 0x408 => writeLinkCtrl lane v d
  | 0x410 => if cfgOn (linkCfg d lane) then
      updLink d lane fun E => { E with inUse := E.inUse && !bit v 41, cfgRefused := E.cfgRefused && !bit v 40 } else d
  | _ => d

end Sys2Proof.Machine
end

