-- ==== Sys2Proof/Machine/TraceFunnel.lean ====
section
/-! DEFINITION. The trace funnel (chapter 16): packets into pages, pages to HBM or host memory, enable and disable, service
cores in low power. -/

namespace Sys2Proof.Machine

/-! ## Packets and pages (R338 to R342) -/

/-- A packet's words (Table 16.2). -/
def trcWords (p : TrcPkt) : List W64 :=
  word [(56, 8, p.src), (52, 4, p.kind), (48, 4, p.words.length), (0, 48, p.ts)] :: p.words
/-- The pad word. -/
abbrev padWord : W64 := BitVec.allOnes 64
/-- The open page is completed, padded to 512 words. -/
def closePage (t : Trace) : Trace :=
  match t.page with
  | none => t
  | some ws => { t with page := none, seq := t.seq + 1, done := t.done ++ [ws ++ List.replicate (512 - ws.length) padWord] }
/-- The word of ATOMS: COUNT, and the oldest atom in bit 0 (Table 16.3). -/
def atomsWord (l : List Bool) : W64 := w64 (l.length * 2 ^ 58 + l.foldr (fun b n => 2 * n + b2n b) 0)
/-- The gathered atoms of a core leave before its trace is disabled, and so before the CORE_SYNC of the next enable (R338), if its trace
unit has room. -/
def flushAtoms (tsc : Nat) (t : Trace) (core : Nat) : Trace :=
  let l := tget [] t.atoms core
  if l ≠ [] ∧ t.enable ∧ bit t.srcEn core ∧ unitWords t core + 2 ≤ 128 then
    { t with atoms := tset [] t.atoms core [], waiting := t.waiting ++ [⟨core, 1, [atomsWord l], tsc % 2 ^ 48⟩] }
  else t
/-- A core owes a CORE_SYNC of cause PAGE, formed at a TSC count. -/
def oweSync (tsc core : Nat) (t : Trace) : Trace :=
  { t with needSync := tset 0 t.needSync core 2, syncTs := tset 0 t.syncTs core tsc }
/-- A page opens with its SYNC; every enabled core then owes a CORE_SYNC, which is its first packet in that page: it stands in the core's
stream before what the funnel has not yet accepted of it, atoms still gathered included (R338, R340; log entry 59). -/
def openPage (tsc : Nat) (t : Trace) : Trace :=
  let t := { t with page := some (trcWords ⟨0xFF, 0, [w64 tsc, w64 t.seq], tsc % 2 ^ 48⟩) }
  (List.range 4).foldl (fun t c =>
    if bit t.srcEn c then oweSync tsc c t else t) t
/-- Appends words to the open page, which is completed when full. -/
def appendPage (ws : List W64) (t : Trace) : Trace :=
  match t.page with
  | none => t
  | some l => let t := { t with page := some (l ++ ws) }; if 512 ≤ (l ++ ws).length then closePage t else t
/-- A page with room for n more words is open, if the buffer allows. -/
def makeRoom (tsc n : Nat) (t : Trace) : Trace :=
  let t := match t.page with
    | some l => if 512 < l.length + n then closePage t else t
    | none => t
  if t.page.isNone ∧ t.done.length < 16 then openPage tsc t else t
/-- CORE_SYNC of cause PAGE, before a packet of its core (R340). -/
def coreSync (core cause : Nat) (addr : W64) (ts : Nat) : TrcPkt := ⟨core, 3, [addr, w64 cause], ts⟩
/-- Accepts a packet, with the LOST packet of R342 or the CORE_SYNC of R340 that must precede it; `none` while the buffer has no
room. `addr` is the open address of a CORE_SYNC that the core emits while it runs. -/
def acceptPkt (tsc : Nat) (addr : W64) (p : TrcPkt) : Nat → Trace → Option Trace
  | 0, _ => none
  | fuel + 1, t =>
    let lost := tget 0 t.lost p.src
    let put (q : TrcPkt) (t : Trace) : Option Trace :=
      let t := makeRoom tsc (q.words.length + 1) t
      if t.page.isNone then none else some (appendPage (trcWords q) t)
    if lost ≠ 0 then
      match put ⟨0xFF, 1, [word [(56, 8, p.src), (0, 32, min lost (2 ^ 32 - 1))]], tsc % 2 ^ 48⟩ t with
      | none => none
      | some t => acceptPkt tsc addr p fuel { t with lost := tset 0 t.lost p.src 0 }
    else
      let t := makeRoom tsc (p.words.length + 1) t
      let cause := if p.src < 4 ∧ p.kind ≠ 3 then tget 0 t.needSync p.src else 0
      if cause ≠ 0 then
        match put (coreSync p.src cause addr (tget 0 t.syncTs p.src % 2 ^ 48)) t with
        | none => none
        | some t => acceptPkt tsc addr p fuel { t with needSync := tset 0 t.needSync p.src 0 }
      else
        (put p t).map fun t => if p.src < 4 ∧ p.kind = 3 then { t with needSync := tset 0 t.needSync p.src 0 } else t

/-! ## Cores in low power (R341, R361) -/

def coreState (t : Trace) (core : Nat) : Nat := tget 0 t.cores core
def setCore (core st : Nat) (d : Dev) : Dev := { d with trc := { d.trc with cores := tset 0 d.trc.cores core st } }
/-- The core runs again, with its CORE_SYNC of cause WAKE. -/
def wakeCore (core : Nat) (d : Dev) : Dev :=
  trace core 3 [tget 0 d.trc.coreAddr core, 0x13] (setCore core 0 d)
/-- Its POWER_DOWN accepted, a core gates its clock; a held wake is applied. -/
def flushedCore (core : Nat) (d : Dev) : Dev :=
  match coreState d.trc core with
  | 1 => setCore core 2 d
  | 3 => wakeCore core d
  | _ => d

/-! ## The funnel -/

/-- The source whose turn it is: in the order of source IDs, from the one after the last (R343, log entry 59). -/
def nextSource (t : Trace) : Option Nat :=
  let after (s : Nat) : Nat := (s + 255 - t.turn) % 256
  t.waiting.foldl (fun best p => match best with
    | some b => if after p.src < after b then some p.src else some b
    | none => some p.src) none
/-- Once no packet waits, a funnel that ends pads its last page. -/
def lastPage (t : Trace) : Trace := if t.flushing ∧ t.waiting = [] then closePage t else t
/-- The oldest packet of the source whose turn it is enters the open page; in a full STOP-mode region it is discarded (R343). Where it
cannot be accepted, Basket's and a core's waits, and another source drops it (Table 16.1). The hub's clock moves it (R348). -/
def acceptFrom (src : Nat) (d : Dev) : Dev :=
  match if nextSource d.trc = some src ∧ nocOn d.clk then d.trc.waiting.find? fun p => p.src = src else none with
  | none => d
  | some p =>
    let (addr, d) := takeFreeWord d
    let after (t : Trace) : Trace := lastPage { t with waiting := t.waiting.erase p, turn := src }
    let r := if d.trc.full then some d.trc else acceptPkt d.clk.tsc addr p 6 d.trc
    match r with
    | none => if src < 4 ∨ src = 0x20 then d else let d := dropPacket src d; { d with trc := after d.trc }
    | some t =>
      let d := { d with trc := after t }
      if src < 4 then (if p.kind = 4 then flushedCore src d else overflowSync src d) else d

/-- OUT_WAIT: the ring full, no session, or Bus Master Enable 0 (R343). -/
def outWait (d : Dev) : Bool :=
  let t := d.trc
  let S := seatOf d.host (seatOfNo t.seat)
  t.active && t.output = 2 && (decide (t.hostPages ≤ t.pages - t.hostRd) || !S.session || !S.busMaster)
/-- One of the posted writes of a page, 512 bytes to a stack's node (R320, R343): it arrives, or is dropped for a dead node, absorbed by a
domain that is not ON, or lost on its way (R316, R321, R322). -/
def postChunk (a : Nat) (ws : List W64) (d : Dev) : Dev :=
  let node := hbmDie a * 256
  let p : Packet := ⟨2, 2, d.sn.current, 0x405, node, 0, 63, 0, 255, a, 0, ws⟩
  post p (4 + hbmDie a) (putHbmWords a ws) d
/-- A page goes to HBM. -/
def postPage (a : Nat) (ws : List W64) (d : Dev) : Dev :=
  (List.range 8).foldl (fun d i => postChunk (a + 512 * i) ((ws.drop (64 * i)).take 64) d) d
/-- The oldest completed page waits for a drain that affects the node it goes to (R323). -/
def pageBlocked (d : Dev) : Bool :=
  match hbmRegion? d 5 with
  | some (base, size) => d.trc.output = 1 && d.trc.done ≠ [] && blockedTo d (hbmDie (base + 4096 * (d.trc.pages % (size / 4096))) * 256)
  | none => false
/-- The oldest completed page is written; toward a node that a drain affects it waits (R323). -/
def writePage (d : Dev) : Dev :=
  let t := d.trc
  match if nocOn d.clk then t.done else [] with
  | [] => d
  | ws :: rest =>
    let t' := { t with pages := t.pages + 1, done := rest }
    if t.output = 1 then
      match hbmRegion? d 5 with
      | none => d
      | some (base, size) =>
        let pages := size / 4096
        let a := base + 4096 * (t.pages % pages)
        if blockedTo d (hbmDie a * 256) then d
        else if t.stop ∧ pages ≤ t.pages + 1 then postPage a ws { d with trc := { t' with full := true, done := [], page := none } }
        else postPage a ws { d with trc := t' }
    else if outWait d then d
    else dmaWrite (seatOf d.host (seatOfNo t.seat)).port ((t.hostBase.toNat + 4096 * (t.pages % t.hostPages)) % 2 ^ 64) ws { d with trc := t' }

/-! ## Enable and disable (R344, R345) -/

/-- An enable that R344 refuses; the HBM output also waits for the HBM stage (Table 17.3). -/
def enableRefused (d : Dev) : Bool :=
  match d.trc.output with
  | 1 => (hbmKind d 5).isEmpty || decide (d.clk.stage < hbmStage)
  | 2 => d.trc.hostPages = 0 || d.trc.seat = 3
  | _ => true
/-- A running core whose trace has been enabled emits a CORE_SYNC of cause ENABLE, behind what it formed before (R340); one that sleeps wakes
with a CORE_SYNC of its own. -/
def enableCore (d : Dev) (core : Nat) : Dev :=
  if coreState d.trc core = 0 ∧ traceOn core d then
    let (addr, d) := takeFreeWord d
    trace core 3 [addr, 1] d
  else d
/-- The enable is applied. -/
def startTrace (d : Dev) : Dev :=
  if enableRefused d then logOpen { d with trc := { d.trc with cfgRefused := true } }
  else
    let t := d.trc
    (List.range 4).foldl enableCore { d with trc := { t with
        active := true, enable := true, pages := 0, seq := 0, hostRd := 0, dropped := [], full := false, lost := []
        waiting := [], page := none, done := [], atoms := [], overflow := [], needSync := [], syncTs := [] } }
/-- A write of 1 to ENABLE: at once, held during a flush, nothing while enabled. -/
def enableTrace (d : Dev) : Dev :=
  if d.trc.flushing then { d with trc := { d.trc with restart := true } }
  else if d.trc.active then d
  else startTrace d
/-- A write of 0 to ENABLE. -/
def disableTrace (d : Dev) : Dev :=
  if d.trc.flushing then { d with trc := { d.trc with restart := false } }
  else if d.trc.active then { d with trc := lastPage { d.trc with enable := false, flushing := true } }
  else d
/-- The last page is written: FLUSHING and ACTIVE clear, and a held enable is applied. -/
def flushDone (d : Dev) : Dev :=
  let t := d.trc
  if t.flushing ∧ t.waiting = [] ∧ t.page = none ∧ t.done = [] then
    let d := { d with trc := { t with flushing := false, active := false, restart := false } }
    if t.restart then startTrace d else d
  else d

/-! ## Register writes (Table 16.6) -/

def traceWriter (m : Master) : Bool := byOneOf m [.manager, .debug]
/-- TRACE_CTRL: FLUSH, then ENABLE. -/
def writeTraceCtrl (v : W64) (d : Dev) : Dev :=
  let d := if bit v 1 then { d with trc := closePage d.trc } else d
  if bit v 0 then enableTrace d else disableTrace d
/-- A configuration register: refused while ACTIVE. -/
def writeTraceCfg (f : Trace → Trace) (d : Dev) : Dev :=
  if d.trc.active then logOpen { d with trc := { d.trc with cfgRefused := true } } else { d with trc := f d.trc }
/-- TRACE_SRC_EN: a core whose trace is disabled forms ATOMS of what it has gathered, one whose trace is enabled a CORE_SYNC (R338, R340). -/
def writeSrcEn (v : W64) (d : Dev) : Dev :=
  let old := d.trc.srcEn
  let off := (List.range 4).filter fun c => bit old c && !bit v c
  let on := (List.range 4).filter fun c => bit v c && !bit old c
  let t := if d.trc.full then d.trc else off.foldl (flushAtoms d.clk.tsc) d.trc
  on.foldl enableCore { d with trc := { t with
    srcEn := v &&& 0x71F, atoms := t.atoms.filter fun (c, _) => bit v c, overflow := t.overflow.filter fun (c, _) => bit v c } }
def writeHostRd (v : W64) (d : Dev) : Dev :=
  let t := d.trc
  if v.toNat < t.hostRd ∨ t.pages < v.toNat then logOpen { d with trc := { t with cfgRefused := true } }
  else { d with trc := { t with hostRd := v.toNat } }
def writeTraceStatus (v : W64) (d : Dev) : Dev :=
  { d with trc := { d.trc with cut := d.trc.cut && !bit v 6, cfgRefused := d.trc.cfgRefused && !bit v 3 } }
/-- A write to the block. -/
def traceRegWrite (off : Nat) (v : W64) (d : Dev) : Dev :=
  match off with
  | 0x00 => writeTraceCtrl v d
  | 0x08 => writeTraceCfg (fun t =>
      { t with flushUs := fld v 39 20, seat := fld v 9 8, stop := bit v 2, output := fld v 1 0 }) d
  | 0x10 => writeSrcEn v d
  | 0x18 => writeTraceStatus v d
  | 0x28 => writeTraceCfg (fun t => { t with hostBase := v &&& 0xFFFF_FFFF_FFFF_F000 }) d
  | 0x30 => writeTraceCfg (fun t => { t with hostPages := fld v 19 0 }) d
  | 0x38 => writeHostRd v d
  | _ => d
/-- The registers of the block, as they read. -/
def traceRegRead (d : Dev) (off : Nat) : W64 :=
  let t := d.trc
  match off with
  | 0x00 => word [fb 0 t.enable]
  | 0x08 => word [(20, 20, t.flushUs), (8, 2, t.seat), fb 2 t.stop, (0, 2, t.output)]
  | 0x10 => t.srcEn
  | 0x18 => word [fb 6 t.cut, fb 5 (outWait d), fb 4 t.full, fb 3 t.cfgRefused, fb 2 t.restart, fb 1 t.flushing, fb 0 t.active]
  | 0x20 => w64 t.pages
  | 0x28 => t.hostBase
  | 0x30 => w64 t.hostPages
  | 0x38 => w64 t.hostRd
  | _ => if 0x100 ≤ off ∧ off < 0x130 then tget 0 t.dropped ((off - 0x100) / 8) else 0

/-! ## Commands -/

/-- A write to the block by a master. -/
def traceWrite (m : Master) (off : Nat) (v : W64) (d : Dev) : Dev :=
  byWrite m (aTrace off) v (fun d => if traceWriter m then traceRegWrite off v d else d) d
def execTraceEnable (m : Master) (v : W64) (s : State) : Host.Outcome State Fault Refusal := lift (traceWrite m 0 (v ||| 1)) s
def execTraceDisable (m : Master) (v : W64) (s : State) : Host.Outcome State Fault Refusal := lift (traceWrite m 0 (v &&& ~~~1)) s
def execTraceFlushDone (s : State) : Host.Outcome State Fault Refusal := 
  lift (fun d => if nocOn d.clk then flushDone d else d) s
/-- FLUSH, with ENABLE as it stands. -/
def flushWord (d : Dev) : W64 := word [fb 1 true, fb 0 (d.trc.enable || d.trc.restart)]
def execTraceFlush (m : Master) (s : State) : Host.Outcome State Fault Refusal :=
  lift (fun d => traceWrite m 0 (flushWord d) d) s
def execPageFlushTimeout (s : State) : Host.Outcome State Fault Refusal := 
  lift (fun d => if nocOn d.clk then { d with trc := closePage d.trc } else d) s
def execTracePacket (source : Byte) (s : State) : Host.Outcome State Fault Refusal := lift (acceptFrom source.toNat) s
def execTracePageWrite (s : State) : Host.Outcome State Fault Refusal := lift writePage s
def execTraceHostRdWrite (m : Master) (v : W64) (s : State) : Host.Outcome State Fault Refusal := lift (traceWrite m 0x38 v) s

/-- The gathered atoms of a core leave in ATOMS, before a packet that must not pass them (R338). -/
def emitAtoms (put : Nat → Nat → List W64 → Dev → Dev) (core : Nat) (d : Dev) : Dev :=
  let l := tget [] d.trc.atoms core
  if l = [] then d else put core 1 [atomsWord l] { d with trc := { d.trc with atoms := tset [] d.trc.atoms core [] } }
/-- A branch retires: an atom is gathered, and the 58th emits them; none is kept between a drop and its CORE_SYNC (R338, R340). -/
def retireBranch (core : Nat) (taken : Bool) (d : Dev) : Dev :=
  if tget false d.trc.overflow core then d
  else
    let l := tget [] d.trc.atoms core ++ [taken]
    let d := { d with trc := { d.trc with atoms := tset [] d.trc.atoms core l } }
    if 58 ≤ l.length then emitAtoms trace core d else d
/-- An indirect branch retires: INDIRECT, behind the atoms before it. -/
def retireIndirect (core : Nat) (target : W64) (d : Dev) : Dev := trace core 2 [target] (emitAtoms trace core d)
/-- One TSC cycle of a traced core that runs. The manual does not describe its instructions: which branch it retires, if any, is an open
value (log entry 59). -/
def coreTick (core : Nat) (d : Dev) : Dev :=
  if traceOn core d && decide (coreState d.trc core = 0) && svcOn d.clk && domainOn d (nodeDomain (0x400 + core)) then
    let (w, d) := takeFreeWord d
    match fld w 1 0 with
    | 0 => d
    | 3 => let (a, d) := takeFreeWord d; retireIndirect core a d
    | n => retireBranch core (n = 2) d
  else d

/-- A running core enters low power: with its trace enabled, behind its gathered atoms and its POWER_DOWN, which its unit never drops
(R341). -/
def powerDownCore (core : Nat) (addr : W64) (d : Dev) : Dev :=
  if coreState d.trc core = 0 then
    let d := { d with trc := { d.trc with coreAddr := tset 0 d.trc.coreAddr core addr } }
    if traceOn core d then
      let d := if tget false d.trc.overflow core then
          putPacket core 3 [addr, 0x34] { d with trc := { d.trc with overflow := tset false d.trc.overflow core false } } else d
      setCore core 1 (putPacket core 4 [addr] (emitAtoms putPacket core d))
    else setCore core 2 d
  else d
def execCorePowerDown (core : Fin 4) (addr : W64) (s : State) : Host.Outcome State Fault Refusal := lift (powerDownCore core addr) s
/-- The interrupt line of a core that sleeps wakes it; during its flush the wake is held (R360, R361). -/
def coreWakes (core : Nat) (q : Irq) (d : Dev) : Irq × Dev :=
  if selectedOf q core = 0 then (q, d)
  else match coreState d.trc core with
    | 1 => (q, setCore core 3 d)
    | 2 => (q, wakeCore core d)
    | _ => (q, d)
def execCoreWake (core : Fin 4) (s : State) : Host.Outcome State Fault Refusal := liftAll (coreWakes core) s

end Sys2Proof.Machine
end

