-- ==== Sys2Proof/Machine/RegMap.lean ====
section
/-! DEFINITION. One access of the service network: the block that an address decodes to (Table 15.2), its registers, and the
answer (R315, R319). -/

namespace Sys2Proof.Machine

/-! ## The interrupt controller's registers (Tables 15.11 and 15.12) -/

/-- The per-target registers: target and register, where the offset names one. -/
def irqTarget? (off : Nat) : Option (Nat × Nat) :=
  if 0x100 ≤ off ∧ off < 0x380 then some ((off - 0x100) / 32, off % 32 / 8) else none
/-- A register, as it reads without effect. -/
def irqRegRead (q : Irq) (off : Nat) : W64 :=
  match irqTarget? off with
  | some (t, r) => if r = 0 then w64 (thresholdOf q t) else if r = 3 then targetState q t else 0
  | none =>
    if off = 0x400 then q.badComplete
    else if off = 0x408 then q.merged
    else if off = 0x410 then q.spurious
    else if off < 0x1000 then 0
    else if off < 0x1200 then pendingWord q (off % 0x100 / 8)
    else if off < 0x1300 then tget 0 q.active ((off - 0x1200) / 8)
    else if off < 0x1380 then tget 0 q.linkEvent ((off - 0x1300) / 8)
    else if 0x4000 ≤ off ∧ off < 0x8000 then srcCfg q ((off - 0x4000) / 8)
    else 0
/-- A write to the controller (R333, R334, R336). -/
def irqRegWrite (m : Master) (off : Nat) (v : W64) (q : Irq) (d : Dev) : Irq × Dev :=
  match irqTarget? off with
  | some (t, r) =>
    if r = 2 then (if irqWriter m || ownVector m t then completeAt t v q d else (q, d))
    else if r = 0 && irqWriter m then (writeThreshold t v q, d)
    else (q, d)
  | none =>
    if 0x1000 ≤ off ∧ off < 0x1100 then (writePending m (off % 0x100 / 8) v q, d)
    else if !irqWriter m then (q, d)
    else if 0x1100 ≤ off ∧ off < 0x1200 then setAt (off % 0x100 / 8) v q d
    else if 0x1300 ≤ off ∧ off < 0x1380 then (clearLinkEvent ((off - 0x1300) / 8) v q, d)
    else if 0x4000 ≤ off ∧ off < 0x8000 then cfgAt ((off - 0x4000) / 8) v q d
    else (q, d)

/-! ## Blocks -/

/-- Where an address lies: a block of Table 15.2, with its index and the offset of the 8-byte word. -/
inductive Place
  | hbm
  | bank (p off : Nat)
  | tile (p off : Nat)
  | hub (i off : Nat)
  | lane (l off : Nat)
  | keep (off : Nat)
  | nowhere
  deriving DecidableEq, Repr

def placeOf (a : Nat) : Place :=
  let a := a / 8 * 8
  if a < 0x30_0000_0000 then .hbm
  else if 0x40_0000_0000 ≤ a ∧ a < 0x40_8400_0000 then .bank ((a - 0x40_0000_0000) / 0x40_0000) (a % 0x40_0000)
  else if 0x50_0000_0000 ≤ a ∧ a < 0x50_0210_0000 then .tile ((a - 0x50_0000_0000) / 0x1_0000) (a % 0x1_0000)
  else if 0x60_0000_0000 ≤ a ∧ a < 0x60_0009_0000 then .hub ((a - 0x60_0000_0000) / 0x1_0000) (a % 0x1_0000)
  else if 0x60_1000_0000 ≤ a ∧ a < 0x60_1040_8000 then .lane ((a - 0x60_1000_0000) / 0x1000) (a % 0x1000)
  else if 0x68_0000_0000 ≤ a ∧ a < 0x68_0400_0000 then .keep (a - 0x68_0000_0000)
  else .nowhere

/-- A register of a hub block, as it reads without effect. -/
def hubRead (i off : Nat) (q : Irq) (d : Dev) : W64 :=
  match i with
  | 0 => snRegRead d.sn off
  | 1 => irqRegRead q off
  | 2 => traceRegRead d off
  | 3 => bktRegRead d off
  | 4 => capRegRead d off
  | 5 => trailRegRead d off
  | 6 => clkRegRead q d off
  | 7 => runRegRead d off
  | _ => reportRead d off
/-- A write to a hub block; the report window answers an access error. -/
def hubWrite (m : Master) (i off : Nat) (v : W64) (env : PinEnv) (q : Irq) (d : Dev) : Option W64 × Irq × Dev :=
  let ok (x : Irq × Dev) : Option W64 × Irq × Dev := (some 0, x.1, x.2)
  match i with
  | 0 => ok (q, if netWriter m then snRegWrite off v d else d)
  | 1 => ok (irqRegWrite m off v q d)
  | 2 => ok (q, if traceWriter m then traceRegWrite off v d else d)
  | 3 => ok (q, bktRegWrite m off v d)
  | 4 => ok (q, capRegWrite m off v d)
  | 5 => ok (q, trailRegWrite m off v d)
  | 6 => ok (if clkWriter m then clkRegWrite m off v q d else (q, d))
  | 7 => ok (q, runRegWrite m off v env d)
  | _ => (none, q, d)

/-- A read that has arrived; `none` is an access-error response. -/
def blockRead (m : Master) (a : Nat) (q : Irq) (d : Dev) : Option W64 × Irq × Dev :=
  let keep (x : Option W64 × Dev) : Option W64 × Irq × Dev := (x.1, q, x.2)
  match placeOf a with
  | .hbm => keep (hbmAcc a .read d)
  | .bank p off => keep (bankAcc m p off .read d)
  | .tile p off => keep (tileRegRead m p off d)
  | .hub i off =>
    match if i = 1 then irqTarget? off else none with
    | some (t, 1) => let (s, q, d) := claimAt t q d; (some (w64 s), q, d)
    | _ => (some (hubRead i off q d), q, d)
  | .lane l off => (some (laneRegRead d l off), q, d)
  | .keep off => let (w, d) := keepRead d off; (some w, q, d)
  | .nowhere => (none, q, d)
/-- A write of a whole word that has arrived. -/
def blockWrite (m : Master) (a : Nat) (v : W64) (env : PinEnv) (q : Irq) (d : Dev) : Option W64 × Irq × Dev :=
  let keep (x : Option W64 × Dev) : Option W64 × Irq × Dev := (x.1, q, x.2)
  match placeOf a with
  | .hbm => keep (hbmAcc a (.write v) d)
  | .bank p off => keep (bankAcc m p off (.write v) d)
  | .tile p off => keep (tileRegWrite p off v d)
  | .hub i off => hubWrite m i off v env q d
  | .lane l off => (some 0, q, laneRegWrite m l off v d)
  | .keep _ => (none, q, d)
  | .nowhere => (none, q, d)

/-! ## Byte enables (Table 15.3) -/

/-- The bits of the enabled bytes. -/
def enabledBits (be : Nat) : W64 :=
  (List.range 8).foldl (fun m i => if be.testBit i then m ||| w64 (0xFF * 2 ^ (8 * i)) else m) 0
/-- The bits of a hub register that a write of fewer bytes leaves as they are: its RW fields. W1C, W1S and WO fields take 0. -/
def hubKeep (i off : Nat) : W64 :=
  let zero : List (Nat × Nat) :=
    [(0, 0), (2, 0x18), (3, 0), (4, 0), (4, 0x20), (5, 8), (6, 8), (6, 0x108), (6, 0x208), (7, 0x118), (7, 0x208), (7, 0x400), (7, 0x500),
     (7, 0x800), (7, 0xB00), (7, 0xC10), (7, 0xC50)]
  if zero.contains (i, off) then 0
  else if i = 0 ∧ 0x100 ≤ off ∧ off < 0x200 then 0
  else if i = 1 ∧ 0x1000 ≤ off ∧ off < 0x1400 then 0
  else if i = 2 ∧ off = 0 then 1
  else if i = 7 ∧ off = 0x100 then 0x18
  else BitVec.allOnes 64
/-- What the bytes that are not enabled keep. -/
def keptWord (a : Nat) (q : Irq) (d : Dev) : W64 :=
  match placeOf a with
  | .hbm => w64 (hbmRead d.mem (a / 8 * 8) 8)
  | .bank p off => w64 (mread (tileOf d p).mem off 8)
  | .tile p off => if 0x1180 ≤ off ∧ off < 0x1200 then tileRead d p off &&& 0x300 else 0
  | .hub i off => hubRead i off q d &&& hubKeep i off
  | .lane l off =>
    if off = 0x10 ∨ off = 0x408 ∨ off = 0x410 then 0 else if off = 0x60 then (laneOf d l).scan else laneRegRead d l off
  | .keep _ => 0
  | .nowhere => 0
/-- The writable bits of a hub register whose write acts even with the word that it holds (Tables 8.7, 5.14, 10.11, 11.7, 13.6, 15.8, 15.11,
16.6, 18.6). -/
def hubActs (i off : Nat) : Option W64 :=
  match i, off with
  | 0, 0x10 => some 7
  | 2, 0x00 => some 3
  | 2, 0x08 => some 0xFF_FFF0_0307
  | 2, 0x28 => some 0xFFFF_FFFF_FFFF_F000
  | 2, 0x30 => some 0xF_FFFF
  | 3, 0x08 => some 0xFFFF_00FF_FFFF
  | 4, 0x08 => some 0xFFFF_FF00_0000_0000
  | 4, 0x10 => some 0x01FF_FFFF_01FF_FFFF
  | 4, 0x18 => some 0x001F_FFFF_0000_1F1F
  | 4, 0x100 => some 0xF
  | 7, 0xC40 => some 0x1F07
  | _, _ =>
    if i = 1 ∧ 0x100 ≤ off ∧ off < 0x380 ∧ off % 32 = 16 then some 0x7FF
    else if i = 4 ∧ 0x80 ≤ off ∧ off < 0x100 then some 0xFFFF_FFFF_FFFF
    else if i = 4 ∧ 0x1000 ≤ off ∧ off < 0x1400 ∧ off % 16 = 0 then some 0xFFFF_FFFE_0000_0000
    else if i = 6 ∧ 0x1000 ≤ off ∧ off < 0x1040 then some 0xE0
    else if i = 7 ∧ 0x600 ≤ off ∧ off < 0x700 then some (if off % 16 = 0 then 0x3F_FFE0_0000 else 0xF000_003F_FFE0_0000)
    else none
/-- The writable bits of a register of any block whose write acts even with the word that it holds. -/
def actBits (a : Nat) (d : Dev) : Option W64 :=
  match placeOf a with
  | .tile p off =>
    if 0x1180 ≤ off ∧ off < 0x1200 then some 0xB00
    else if 0x7000 ≤ off ∧ off < 0x8000 ∧ ctxReady d p then some 0x3_FFFF_FFFF
    else none
  | .hub i off => hubActs i off
  | .lane _ off => if off = 0x08 then some 7 else if off = 0x40 then some 0xB else if off = 0x400 then some 0xFFF0 else none
  | _ => none
/-- A write under byte enables; one that reaches no writable field of a register is no write of it (R5, R119, R262). -/
def blockWriteBe (m : Master) (a : Nat) (v : W64) (be : Nat) (env : PinEnv) (q : Irq) (d : Dev) : Option W64 × Irq × Dev :=
  if be % 256 = 255 then blockWrite m a v env q d
  else if (actBits a d).any fun bits => bits &&& enabledBits be = 0 then (some 0, q, d)
  else blockWrite m a (maskW (enabledBits be) (keptWord a q d) v) env q d

/-! ## Accesses -/

/-- An access of an initiator: a read, or a write of the enabled bytes. -/
inductive Op
  | read
  | write (v : W64) (be : Nat)
  deriving DecidableEq, Repr

def Op.isWrite : Op → Bool
  | .read => false
  | .write _ _ => true
/-- The answer of an access: STATUS and data. -/
structure Reply where
  status : Nat
  data : W64
  irq : Irq
  dev : Dev

/-- An access that has reached its node is performed. -/
def performAt (m : Master) (a : Nat) (op : Op) (env : PinEnv) (q : Irq) (d : Dev) : Reply :=
  let (r, q, d) := match op with
    | .read => blockRead m a q d
    | .write v be => blockWriteBe m a v be env q d
  ⟨if r.isSome then 0 else 1, r.getD 0, q, d⟩
/-- The same for an access of a master, with its response on its way back (19 where it is lost) and an access error logged (R319); a request
to the interrupt controller finds the earlier events of its node there (R318). -/
def perform (m : Master) (a : Nat) (op : Op) (env : PinEnv) (q : Irq) (d : Dev) : Reply :=
  let ask := askAt op.isWrite a
  let p := requestOf m op.isWrite ask d
  let (q, d) := if ask.node = irqNode then flushNode (masterNode d m) q d else (q, d)
  let r := performAt m a op env q d
  let d := goBack p r.status (logError r.status r.dev)
  if comesBack p d then { r with dev := noteStatus m r.status a d } else { r with status := 19, dev := keepRoom p d }
/-- An access that its master may make is injected, or waits (20); its other codes are those of `travel`. -/
def goAccess (via : Via) (m : Master) (a : Nat) (op : Op) (env : PinEnv) (q : Irq) (d : Dev) : Reply :=
  let ask := askAt op.isWrite a
  if accessWaits m op.isWrite ask d then
    let w := match op with
      | .read => none
      | .write v be => some (v, be)
    ⟨20, 0, q, holdAccess via m a w env d⟩
  else
    let (g, d) := reachNode m op.isWrite ask d
    if g = 0 then perform m a op env q d else ⟨g, 0, q, d⟩
/-- An access of a seat: its codes are those of `judge` and `goAccess`. -/
def snAccess (via : Via) (s : Seat) (a : Nat) (op : Op) (env : PinEnv) (q : Irq) (d : Dev) : Reply :=
  let (g, d) := judge (.seat s) op.isWrite (askAt op.isWrite a) d
  if g = 0 then goAccess via (.seat s) a op env q d else ⟨g, 0, q, d⟩

/-! ## What an access goes back to -/

/-- How an access through BAR2 shows on PCIe. -/
def showBar2 (write : Bool) (status : Nat) (v : W64) (d : Dev) : Dev :=
  let f : Answer := { Answer.reset with
    status := if status < 16 then status else 0, data := if write then 0 else v, abort := !write && decide (status ≠ 0) && decide (status < 18)
    unsupported := decide (status = 18), ignored := write && decide (status = 16), denied := decide (status = 17) }
  { d with host := { d.host with answer := f } }
/-- The status byte of an SPI access (R376). -/
def spiByte (status : Nat) : Nat := if status < 16 then status else if status = 16 then 0x40 else if status = 17 then 0x80 else 0
/-- What an SPI read shifts out once the access has completed: 0xA5, the status byte, the word; that of a failed one is open (R376). -/
def shiftOut (status : Nat) (v : W64) (d : Dev) : Dev :=
  let (w, d) := if status = 0 then (v, d) else takeFreeWord d
  { d with host := { d.host with answer := { d.host.answer with
    shifted := 0xA5 :: BitVec.ofNat 8 (spiByte status) :: bytesOf 8 w.toNat } } }
/-- The response of a REG_READ or REG_WRITE (R302); an access error has its log entry already (R311). -/
def respondReg (c : Cmd) (write : Bool) (status : Nat) (v : W64) (d : Dev) : Dev :=
  let d := { d with host := { d.host with held := d.host.held.erase c } }
  if status = 17 then respond c 0x0103 [] d
  else if status = 1 then putResponse c 0x0106 [w64 status] d
  else if status ≠ 0 then respond c 0x0106 [w64 status] d
  else respond c 0 (if write then [] else [v]) d
/-- An access ends with a status and data. -/
def finishVia (via : Via) (a : Nat) (write : Bool) (status : Nat) (v : W64) (d : Dev) : Dev :=
  match via with
  | .snCtrl s => updSeat d s fun S => if !S.snGo then S else
      { S with snErr := decide (status ≠ 0), snData := if status = 0 ∧ !write then v else S.snData, snGo := false }
  | .bar2 size => showBar2 write status (if size = 8 then v else w64 (fld v (8 * (a % 8) + 31) (8 * (a % 8)))) d
  | .cmd c => respondReg c write status v d
  | .spi =>
    let d := if failed status then updSeat d .board fun S => { S with snErr := true } else d
    if status = 18 then (if write then d else answerGate 18 d)
    else if write then { d with host := { d.host with spiStatus := spiByte status, spiOpen := false } }
    else shiftOut status v (if status = 0 then answer 0 v d else answerGate status d)
  | .direct m => if status = 0 then answer 0 v d else endGate m write status d
  | .posted m => if failed status then seatError m false d else d
/-- An SPI access that has not completed: a read shifts out 0x00, a write has no status yet (R376). -/
def spiWaits (write : Bool) (d : Dev) : Dev :=
  { d with host := if write then { d.host with spiOpen := true } else { d.host with answer := { Answer.reset with shifted := [0] } } }
/-- The outcome of an access for what began it: its end, a wait (20) or a request that never arrives (19); none after a write that resets
the module, whose start-up stage falls. -/
def conclude (via : Via) (a : Nat) (write : Bool) (stage : Nat) (r : Reply) : Irq × Dev :=
  if r.dev.clk.stage < stage then (r.irq, r.dev)
  else if 19 ≤ r.status then
    (r.irq, match via with
      | .cmd c => if r.dev.host.held.contains c then r.dev else holdCmd c r.dev
      | .spi => spiWaits write r.dev
      | _ => r.dev)
  else (r.irq, finishVia via a write r.status r.data r.dev)
/-- An access of a seat, and what it goes back to. -/
def seatAccess (via : Via) (s : Seat) (a : Nat) (op : Op) (env : PinEnv) (q : Irq) (d : Dev) : Irq × Dev :=
  conclude via a op.isWrite d.clk.stage (snAccess via s a op env q d)
/-- An access that waited is tried again. -/
def retryAccess (h : Held) (q : Irq) (d : Dev) : Irq × Dev :=
  let op : Op := match h.write with
    | none => .read
    | some (v, be) => .write v be
  conclude h.via h.addr op.isWrite d.clk.stage (goAccess h.via h.master h.addr op h.env q d)

/-- As `withLinks`, for an effect on the controller too. -/
def withLinksAll (f : Irq → Dev → Irq × Dev) (q : Irq) (d : Dev) : Irq × Dev :=
  let r := f q d
  (r.1, withLinks (fun _ => r.2) d)

/-! ## REG_READ and REG_WRITE (R302) -/

/-- Whether a command's own access is allowed: the seat rule, and the protection under which it was accepted (R306, R307). -/
def cmdMay (c : Cmd) (a : Ask) (d : Dev) : Bool :=
  let held (p : Nat) : Bool := c.seat = .manager || bit c.prot p
  let inRegion (p : Nat) : Bool :=
    c.seat = .manager || (decide (tileRegion d.fuse p < 32) && bit c.prot (tileRegion d.fuse p))
  a.seats.contains c.seat && a.perms.all held && !(a.tile.any fun p => !inRegion p)
/-- The access of a command, with its response. An address has 40 bits. -/
def regCmd (c : Cmd) (op : Op) (env : PinEnv) (q : Irq) (d : Dev) : Irq × Dev :=
  let a := (c.par 1).toNat
  if 2 ^ 40 ≤ a then (q, respond c 3 [] d)
  else conclude (.cmd c) a op.isWrite d.clk.stage (if cmdMay c (askAt op.isWrite a) d then goAccess (.cmd c) (.seat c.seat) a op env q d
    else ⟨17, 0, q, denySeat c.seat d⟩)
/-- The oldest accepted command executes with an effect on the controller too (R298). -/
def execAll (seat : Seat) (op : Nat) (f : Cmd → Irq → Dev → Irq × Dev) (q : Irq) (d : Dev) : Irq × Dev :=
  let d := finishFirst d
  match d.host.order with
  | [] => (q, d)
  | c :: rest =>
    if c.seat = seat ∧ c.opcode = op ∧ c.refused = 0 ∧ foviaFree d then
      let d := { d with host := { d.host with order := rest } }
      f c q (if c.relayed then d else updSeat d seat fun S => { S with exec := true })
    else (q, d)
def execRegRead (seat : Seat) (s : State) : Host.Outcome State Fault Refusal :=
  liftAll (withLinksAll (execAll seat 0x0110 fun c => regCmd c .read PinEnv.none)) s
def execRegWrite (seat : Seat) (env : PinEnv) (s : State) : Host.Outcome State Fault Refusal :=
  liftAll (withLinksAll (execAll seat 0x0111 fun c => regCmd c (.write (c.par 2) 255) env)) s

end Sys2Proof.Machine
end

