-- ==== Sys2Proof/Machine/Packets.lean ====
section
/-! DEFINITION. Packets of the service network (chapter 15): requests with their waits, responses, dead targets, the end of an epoch
drain, domains that wake. -/

namespace Sys2Proof.Machine

/-! ## Requests (R315, R318, R321, R322) -/

/-- Requests travel on VN0, the others on VN2 (R318). -/
def vnOf (kind : Nat) : Nat := if kind ≤ 1 then 0 else if kind = 3 then 1 else 2
/-- The initiator of a class (Table 5.10). -/
def classMaster (cls : Nat) : Option Master :=
  match cls with
  | 0 => none
  | 1 | 2 | 3 | 4 => some (.seat (seatOfNo (cls - 1)))
  | 5 => some .core
  | 6 => some .loader
  | _ => some .trail
/-- The words of an access, from word i on: the first STATUS other than OK, and the words read. -/
def accessWords (m : Master) (a : Nat) (env : PinEnv) (be : Nat) : List (Option W64) → Reply → Reply × List W64
  | [], r => (r, [])
  | x :: rest, r =>
    let op : Op := match x with
      | none => .read
      | some v => .write v be
    let one := performAt m a op env r.irq r.dev
    let (last, l) := accessWords m (a + 8) env be rest { one with status := if r.status = 0 then one.status else r.status }
    (last, one.data :: l)
/-- What a request asks of each word. -/
def wordOps (p : Packet) : List (Option W64) :=
  if p.kind = 0 then List.replicate (p.lenM1 + 1) none else (List.range (p.lenM1 + 1)).map fun i => some (p.data.getD i 0)
def updSn (f : Sn → Sn) (d : Dev) : Dev := { d with sn := f d.sn }
/-- A counter of accesses counts a packet once, however many words it has (R229, R317). -/
def oncePer (old new : W64) : W64 := if new = old then old else old + 1
/-- The counters of design memory after a packet. -/
def countPacket (old d : Dev) : Dev :=
  { d with
    mem := { d.mem with hbmRefused := oncePer old.mem.hbmRefused d.mem.hbmRefused
                        hostWrites := oncePer old.mem.hostWrites d.mem.hostWrites }
    bkt := { d.bkt with hostWriteRefused := oncePer old.bkt.hostWriteRefused d.bkt.hostWriteRefused }
    tiles := d.tiles.map fun (p, T) => (p, { T with conflict := T.conflict.map fun (i, n) =>
      (i, oncePer (tget 0 (tileOf old p).conflict i) n) }) }
/-- A request arrives at its target: it is performed, and its response is owed. -/
def arrive (m : Master) (p : Packet) (env : PinEnv) (q : Irq) (d : Dev) : Irq × Dev :=
  let (q, d) := if p.dst = irqNode then flushNode p.src q d else (q, d)
  let be := if p.lenM1 = 0 then p.be.toNat else 255
  let (r, l) := accessWords m p.addr env be (wordOps p) ⟨0, 0, q, d⟩
  let x : Packet := { p with status := r.status, data := if p.kind = 0 then l else [] }
  if r.dev.clk.stage < d.clk.stage then (r.irq, r.dev)
  else
    let d := logError r.status (countPacket d r.dev)
    (r.irq, if nonPosted p then updSn (fun n => { n with owed := n.owed ++ [x] }) d else d)
/-- A request is answered before it reaches its node; a posted write has no answer. -/
def answerAt (m : Master) (p : Packet) (g : Nat) (d : Dev) : Dev :=
  if nonPosted p then endGate m (p.kind ≠ 0) g (if g < 16 then noteStatus m g p.addr d else d)
  else if g < 16 then countDrop g d
  else answerGate g d
/-- A packet is injected, as its seat may: it passes the probes on its way, and arrives if its routes lead there. -/
def inject (p : Packet) (env : PinEnv) (q : Irq) (d : Dev) : Irq × Dev :=
  match classMaster p.cls with
  | none => (q, d)
  | some m =>
    let ask := askAt (p.kind ≠ 0) p.addr
    let (g, d) := judge m (p.kind ≠ 0) ask d
    if g ≠ 0 then (q, answerAt m p g d)
    else
      let (n, d) := travel p ask.decoded ask.domain d
      if n = 0 then arrive m p env q d
      else if n = 19 then (q, if nonPosted p then keepRoom p d else d)
      else (q, answerAt m p n d)
/-- A packet as its initiator forms it: its node by the address decode, node 4 of the hub for an EVENT, its network by its kind,
the current epoch; ADDR is zero in an EVENT. -/
def formPacket (p : Packet) (d : Dev) : Packet :=
  let a := askAt (p.kind ≠ 0) p.addr
  { p with
    vn := vnOf p.kind, epoch := d.sn.current, addr := if p.kind = 4 then 0 else p.addr
    dst := if p.kind = 4 then irqNode else if a.decoded then a.node else p.dst }
/-- An EVENT packet is on its way to node 4 (R327). -/
def sendEvent (p : Packet) (d : Dev) : Dev :=
  let w := p.data.headD 0
  { d with events := d.events ++ [⟨fld w 10 0, bit w 12, bit w 11, 1024, p.src, some p.epoch⟩] }
/-- SN_REQUEST. -/
def snRequest (p : Packet) (env : PinEnv) (q : Irq) (d : Dev) : Irq × Dev :=
  if p.kind = 3 ∨ 4 < p.kind then (q, d)
  else
    let p := formPacket p d
    if mustWait d p then (q, updSn (fun n => { n with waiting := n.waiting ++ [(p, env)] }) d)
    else if p.kind = 4 then (q, sendEvent p d)
    else inject p env q d
/-- Events that waited for the drain are injected. -/
def injectEvents (d : Dev) : Dev :=
  if blockedTo d irqNode then d
  else { d with events := d.events.map fun e => if e.sent.isNone then { e with sent := some d.sn.current } else e }
/-- What waits, accesses and packets, in the order in which it came. -/
def inOrder (n : Sn) : List (Held ⊕ (Packet × PinEnv)) :=
  (sortBy (·.1) (n.held.map (fun h => (2 * h.after, .inl h)) ++ n.waiting.zipIdx.map fun (w, i) => (2 * i + 1, .inr w))).map (·.2)
/-- Each is tried again, oldest first. -/
def retryAll : List (Held ⊕ (Packet × PinEnv)) → Irq → Dev → Irq × Dev
  | [], q, d => (q, d)
  | x :: rest, q, d =>
    let (q, d) := match x with
      | .inl h => retryAccess h q d
      | .inr (p, env) => snRequest p env q d
    retryAll rest q d
/-- Waits may have ended: events are injected, then what waits. -/
def retryWaiting (q : Irq) (d : Dev) : Irq × Dev :=
  let d := injectEvents (capRetry d)
  retryAll (inOrder d.sn) q (updSn (fun n => { n with held := [], waiting := [] }) d)

/-! ## Responses (R319, R321, R322) -/

/-- A response passes the probes and reaches its initiator. -/
def deliverResponse (p : Packet) (d : Dev) : Dev :=
  let d := passResponse p p.dst p.status p.data d
  if domainState d (nodeDomain p.src) = 2 then updSn (fun n => { n with lateResp := n.lateResp + 1 }) d
  else
    let d := answer p.status (p.data.headD 0) d
    match classMaster p.cls with
    | some m => if p.status = 0 then d else seatError m (p.kind = 0) (noteStatus m p.status p.addr d)
    | none => d
/-- A response that a router discards: one of a dead node, at its own router (R321). -/
def discardResponse (p : Packet) (d : Dev) : Dev :=
  updSn (fun n => { n with late := n.late.erase p, lateResp := n.lateResp + 1 })
    (passPath (responseOf p p.status p.data) [(p.dst, 0, noPort)] d)
/-- SN_RESPONSE: the oldest response owed by a node under a tag, which comes to its initiator or is lost on its way, or a late one of a dead
node; none while the network's clock stands. -/
def response (node tag : Nat) (q : Irq) (d : Dev) : Irq × Dev :=
  let mine (p : Packet) : Bool := nocOn d.clk && p.dst = node && p.tag = tag
  match d.sn.owed.find? mine with
  | some p =>
    let d := updSn (fun n => { n with owed := n.owed.erase p }) d
    if arrives d.sn node p.src p.epoch then retryWaiting q (deliverResponse p d)
    else (q, passResponse p p.dst p.status p.data (keepRoom p d))
  | none =>
    match d.sn.late.find? mine with
    | some p => (q, discardResponse p d)
    | none => (q, d)
/-- A router answers a request that it has forwarded DEAD_TARGET. -/
def answerDead (d : Dev) (p : Packet) : Dev :=
  let x := { p with status := 3, data := blankWords p }
  if arrives d.sn p.dst p.src p.epoch then deliverResponse x d
  else passResponse x x.dst 3 x.data (keepRoom p d)
/-- A node that still owes a response is declared dead: its requests are answered DEAD_TARGET. -/
def declareDead (node : Nat) (q : Irq) (d : Dev) : Irq × Dev :=
  let l := d.sn.owed.filter fun p => p.dst = node
  if l = [] then (q, d)
  else
    let d := updSn (fun n => { n with
      owed := n.owed.filter fun p => p.dst ≠ node
      late := n.late ++ l
      dead := tupd 0 n.dead (node / 64) fun w => setBit w (node % 64) true }) d
    retryWaiting q (l.foldl answerDead d)

/-! ## Drains and domains (R322 to R324) -/

/-- No packet of the old epoch remains: the drain ends, and a held SWAP is applied. -/
def drainDone (q : Irq) (d : Dev) : Irq × Dev :=
  if d.sn.draining && d.sn.owed.all (fun p => p.epoch = d.sn.current) && d.events.all fun e => e.sent ≠ some (!d.sn.current) then
    let d := pulse 0x031 (updSn (fun n => { n with draining := false }) d)
    let d := if d.sn.swapPending then updSn (fun n => swapBanks { n with swapPending := false }) d else d
    retryWaiting q d
  else (q, d)
/-- A power-down asked for meanwhile takes a domain that has just woken: an entry that turns it off, or the shut-down of the HBM clock. -/
def downAgain (d : Dev) (dom : Nat) : Bool :=
  (d.clk.pw = 1 && (domainsOff d.clk.pwTarget).contains dom) || (d.clk.hbmcStopping && decide (4 ≤ dom) && decide (dom < 8))
/-- A WAKING domain is ON. -/
def domainOnDone (dom : Nat) (q : Irq) (d : Dev) : Irq × Dev :=
  if domainState d dom = 3 then
    let d := setDomain dom 0 false d
    retryWaiting q (if downAgain d dom then absorb dom d else d)
  else (q, d)

/-! ## Commands -/

def execSnRequest (p : Packet) (env : PinEnv) (s : State) : Host.Outcome State Fault Refusal :=
  liftAll (withLinksAll (snRequest p env)) s
def execSnResponse (node tag : Nat) (s : State) : Host.Outcome State Fault Refusal := liftAll (withLinksAll (response node tag)) s
def execDeadTarget (node : Fin 2048) (s : State) : Host.Outcome State Fault Refusal := liftAll (withLinksAll (declareDead node)) s
def execEpochDrainDone (s : State) : Host.Outcome State Fault Refusal := liftAll (withLinksAll drainDone) s
def execDomainWake (d : Fin 16) (s : State) : Host.Outcome State Fault Refusal := liftAll (withLinksAll (domainOnDone d)) s

end Sys2Proof.Machine
end

