-- ==== Sys2Proof/Machine/Seats.lean ====
section
/-! DEFINITION. The mailbox commands of sessions, dumps, power, diagnostics and the Keep store (Table 14.6). -/

namespace Sys2Proof.Machine

/-! ## HELLO and GOODBYE (R299) -/

/-- Versions supported, highest first, as major × 256 + minor. -/
def versions : List Nat := [0x204, 0x203, 0x202, 0x201, 0x200, 0x103, 0x102, 0x101, 0x100]
/-- The version that a HELLO's word and form give. -/
def chooseVersion (v1 : Bool) (w : W64) : Option Nat :=
  if v1 then versions.find? fun v => decide (v ≤ fld w 15 0) && decide (v ≤ 0x103)
  else versions.find? fun v => decide (fld w 31 16 ≤ v) && decide (v ≤ fld w 15 0)
/-- The version of the slot that runs. -/
def runningVersion (d : Dev) : Nat := if d.clk.slot then d.keep.verB else d.keep.verA
/-- HELLO begins a session, moves it or renegotiates it; one from the twin answers and leaves the sessions as they are. -/
def helloCmd (c : Cmd) (d : Dev) : Nat × List W64 × Dev :=
  match chooseVersion c.v1 (c.par 1) with
  | none => (0x0104, [], d)
  | some v =>
    let d := if c.relayed then d
      else updSeat d c.seat fun S => { S with session := true, version := v, port := if c.seat = .board then .psp else c.port }
    (0, [word [(32, 32, (moduleId d.fuse).toNat), (16, 8, seatNo c.seat), (0, 16, v)],
         word [(48, 2, b2n d.clk.slot), (0, 32, runningVersion d)]], d)
/-- A seat's session ends. -/
def endSeat (s : Seat) (d : Dev) : Dev := updSeat d s fun S => { S with session := false, version := 0 }
def goodbyeCmd (c : Cmd) (d : Dev) : Nat × List W64 × Dev := (0, [], if c.relayed then d else endSeat c.seat d)

/-! ## DUMP (R304) -/

/-- The banks that a dump holds: (tile, bank), ascending. -/
def dumpBanks (d : Dev) : List (Nat × Nat) := (placedTiles d).flatMap fun (p, T) => (mappedBanks T).map fun b => (p, b)
/-- The length of a snapshot. -/
def dumpSize (st banks : Bool) (d : Dev) : Nat :=
  64 + (if st then 8 * (mirrorBody d (snapshot d.run.committed d)).length else 0) + (if banks then 262144 * (dumpBanks d).length else 0)
/-- Its content after the header. -/
def dumpBody (st banks : Bool) (d : Dev) : List W64 :=
  (if st then mirrorBody d (snapshot d.run.committed d) else [])
    ++ (if banks then (dumpBanks d).flatMap fun (p, b) => wordsOf (mbytes (tileOf d p).mem (262144 * b) 262144) else [])
/-- Why a DUMP is refused; 0 where it is not. The board seat's port has no path into host memory. -/
def dumpCode (c : Cmd) (d : Dev) : Nat :=
  let st := bit (c.par 1) 0
  let banks := bit (c.par 1) 1
  let okState := d.run.st = .loaded || d.run.st = .stopped || d.run.st = .stranded
  if (!st && !banks) || (c.par 2).toNat % 4096 ≠ 0 || decide ((c.par 3).toNat < dumpSize st banks d) then 3
  else if !okState then 4
  else if d.clk.stage < 4 then 0x0904
  else if c.seat = .board || !(seatOf d.host c.seat).busMaster then 0x0105
  else 0
def dumpCmd (c : Cmd) (d : Dev) : Dev :=
  let d := startLong 5 c d
  let code := dumpCode c d
  if code ≠ 0 then endLong code [] d else { d with host := { d.host with dumpBytes := 0, dumpAbort := false } }
/-- The snapshot is written, whole or, after an ABORT, up to a 4 KiB boundary that the spec leaves open. -/
def dumpDone (d : Dev) : Dev :=
  match d.host.longCmd with
  | none => d
  | some c =>
    if d.host.longKind ≠ 5 then d
    else
      let (h, d) := header d.run.committed (64 + 8 * (dumpBody (bit (c.par 1) 0) (bit (c.par 1) 1) d).length) d
      let ws := h ++ dumpBody (bit (c.par 1) 0) (bit (c.par 1) 1) d
      let (w, d) := takeFreeWord d
      let n := if d.host.dumpAbort then w.toNat % (8 * ws.length / 4096 + 1) * 512 else ws.length
      let d := dmaWrite c.port (c.par 2).toNat (ws.take n) { d with host := { d.host with dumpBytes := 8 * n } }
      endLong (if d.host.dumpAbort then 5 else 0) [w64 (8 * n), w64 d.run.committed] d

/-! ## POWER_STATE, LOG_READ, SELFTEST (R311, R358) -/

/-- POWER_STATE names SLEEP or DEEP as PWR_CTRL.REQ does; the response of one accepted is written when entry begins, or a wake aborts it
(R359, log entry 62). -/
def powerCmd (c : Cmd) (d : Dev) : Dev :=
  let target := fld (c.par 1) 1 0
  if target ≠ 1 ∧ target ≠ 2 then respond c 3 [] d
  else if jtagTest d then respond c 4 [] d
  else
    let code := powerCode target d
    let d := requestPower target d
    if code = 0 then holdCmd c d else respond c code [] d
/-- The index of the oldest log entry held. -/
def oldestEntry (k : Keep) : Nat := k.logNext - k.log.length
def logCmd (c : Cmd) (d : Dev) : Nat × List W64 × Dev :=
  let n := (c.par 2).toNat
  let first := max (c.par 1).toNat (oldestEntry d.keep)
  if n = 0 ∨ 63 < n then (3, [], d)
  else (0, w64 (oldestEntry d.keep) :: ((d.keep.log.drop (first - oldestEntry d.keep)).take n).flatten, d)
/-- SELFTEST begins. -/
def selftestCmd (c : Cmd) (d : Dev) : Dev :=
  if d.run.st ≠ .idle || jtagTest d then respond c 4 [] d
  else if bit (c.par 1) 1 && decide (d.clk.stage < 4) then respond c 0x0904 [] d
  else holdCmd c { d with keep := { d.keep with selftest := some ((c.par 1).setWidth 4) } }
/-- The selected tests end; `failed` says which of them failed. -/
def selftestDone (failed : BitVec 4) (d : Dev) : Dev :=
  match d.keep.selftest with
  | none => d
  | some mask =>
    let bad := failed &&& mask
    finishHeld 0x0A02 (if bad = 0 then 0 else 0x0A01) [w64 bad.toNat] { d with keep := { d.keep with selftest := none } }

/-! ## Fovia images (R309) -/

def updKeep (f : Keep → Keep) (d : Dev) : Dev := { d with keep := f d.keep }
def setSlotState (b : Bool) (st : Nat) (k : Keep) : Keep := if b then { k with stB := st } else { k with stA := st }
def fwInfo (d : Dev) : List W64 :=
  let k := d.keep
  [word [(62, 2, b2n d.clk.slot), (0, 32, k.rollback)], word [(56, 8, k.stA), (0, 32, k.verA)], word [(56, 8, k.stB), (0, 32, k.verB)]]
/-- Bytes are staged; a slot that was not STAGING starts afresh. -/
def stageBytes (b : Bool) (off : Nat) (bytes : List Byte) (k : Keep) : Keep :=
  let old := if slotState k b = 1 then (if b then k.stagedB else k.stagedA) else []
  let ext := old ++ [(off, off + bytes.length)]
  let m := mwriteBytes (slotMem k b) off bytes
  setSlotState b 1 (if b then { k with slotB := m, stagedB := ext } else { k with slotA := m, stagedA := ext })
def stageCmd (c : Cmd) (d : Dev) : Nat × List W64 × Dev :=
  let off := (c.par 1).toNat
  let bytes := (bytesOfWords (c.params.drop 1)).take (c.length - 8)
  if 2 ^ 24 < off + bytes.length then (0x0A10, [], d) else (0, [], updKeep (stageBytes (!d.clk.slot) off bytes) d)
/-- A slot becomes PENDING with its version and ROLLBACK. -/
def makePending (b : Bool) (k : Keep) : Keep :=
  let h := mbytes (slotMem k b) 0 256
  let ver := (leAt h 4 1 * 256 + leAt h 5 1) * 65536 + leAt h 6 2
  let roll := leAt h 0x0C 4
  if b then { k with stB := 2, verB := ver, rollB := roll, bootedB := false }
  else { k with stA := 2, verA := ver, rollA := roll, bootedA := false }
def commitCmd (d : Dev) : Nat × List W64 × Dev :=
  let b := !d.clk.slot
  if slotState d.keep b ≠ 1 then (4, [], d)
  else
    let code := imageCode d.keep b
    if code = 0 then (0, [], updKeep (makePending b) d)
    else (code, [], if code = 0x0A13 then d else updKeep (setSlotState b 5) d)
def confirmCmd (d : Dev) : Nat × List W64 × Dev :=
  let b := d.clk.slot
  if slotState d.keep b ≠ 2 then (0x0A14, [], d)
  else (0, [], updKeep (fun k =>
    let k := setSlotState (!b) 4 (setSlotState b 3 k)
    { k with rollback := max k.rollback (if b then k.rollB else k.rollA) }) d)

/-! ## Keys (R310) -/

def noKeys (t : Tbl (Nat × Nat)) : Bool := t.isEmpty
/-- KEY_SET: X and Y follow word 1, big-endian. -/
def keyCmd (c : Cmd) (d : Dev) : Nat × List W64 × Dev :=
  let slot := fld (c.par 1) 1 0
  let b := bytesOfWords (c.params.drop 1)
  let key := (natOfBE (b.take 48), natOfBE ((b.drop 48).take 48))
  let keys := tset (0, 0) d.keep.keys slot key
  if d.run.st = .loading then (4, [], d)
  else if key ≠ (0, 0) ∧ !onCurve key then (0x0A20, [], d)
  else if noKeys keys ∧ !noKeys d.keep.keys ∧ d.keep.required then (0x0A21, [], d)
  else (0, [], updKeep (fun k => { k with keys := keys }) d)
def policyCmd (c : Cmd) (d : Dev) : Nat × List W64 × Dev :=
  if d.run.st = .loading then (4, [], d)
  else if bit (c.par 1) 0 && noKeys d.keep.keys then (0x0A21, [], d)
  else (0, [], updKeep (fun k => { k with required := bit (c.par 1) 0 }) d)

/-! ## Commands -/

def execHello (seat : Seat) (s : State) : Host.Outcome State Fault Refusal := lift (execNow seat 0x0101 helloCmd) s
def execGoodbye (seat : Seat) (s : State) : Host.Outcome State Fault Refusal := lift (execNow seat 0x0102 goodbyeCmd) s
def execDump (seat : Seat) (s : State) : Host.Outcome State Fault Refusal := lift (execCmd seat 0x0310 dumpCmd) s
def execDumpComplete (s : State) : Host.Outcome State Fault Refusal := lift dumpDone s
def execPowerState (seat : Seat) (s : State) : Host.Outcome State Fault Refusal := lift (execCmd seat 0x0902 powerCmd) s
def execLogRead (seat : Seat) (s : State) : Host.Outcome State Fault Refusal := lift (execNow seat 0x0A01 logCmd) s
def execSelftest (seat : Seat) (s : State) : Host.Outcome State Fault Refusal := lift (execCmd seat 0x0A02 selftestCmd) s
def execSelftestComplete (failed : BitVec 4) (s : State) : Host.Outcome State Fault Refusal := lift (selftestDone failed) s
def execFwInfo (seat : Seat) (s : State) : Host.Outcome State Fault Refusal :=
  lift (execNow seat 0x0A10 fun _ d => (0, fwInfo d, d)) s
def execFwStage (seat : Seat) (s : State) : Host.Outcome State Fault Refusal := lift (execNow seat 0x0A11 stageCmd) s
def execFwCommit (seat : Seat) (s : State) : Host.Outcome State Fault Refusal := lift (execNow seat 0x0A12 fun _ d => commitCmd d) s
def execFwConfirm (seat : Seat) (s : State) : Host.Outcome State Fault Refusal := lift (execNow seat 0x0A13 fun _ d => confirmCmd d) s
def execKeySet (seat : Seat) (s : State) : Host.Outcome State Fault Refusal := lift (execNow seat 0x0A20 keyCmd) s
def execPolicySet (seat : Seat) (s : State) : Host.Outcome State Fault Refusal := lift (execNow seat 0x0A21 policyCmd) s

end Sys2Proof.Machine
end

