-- ==== Sys2Proof/Machine/Attach.lean ====
section
/-! DEFINITION. Host attachment (chapter 14): BAR0 of a seat, doorbells, indirect accesses, BAR2, protection set-up, the status
mirror, the PCIe ports; the parallel slave port and the SPI slave (chapter 18); register writes. -/

namespace Sys2Proof.Machine

/-! ## Doorbells (R293, R298, R300, R359) -/

/-- A doorbell that is ignored shows in DOORBELL_REFUSED and in the log (R298, R311). -/
def refuseBell (seat : Seat) (d : Dev) : Dev :=
  logOpen (updSeat d seat fun S => { S with refused := S.refused + 1, doorbellRefused := true })
/-- A port through which a seat is reached (Table 14.2). -/
def portOfSeat (seat : Seat) (port : Port) : Bool := if seat = .board then port = .psp else port ≠ .psp
/-- DOORBELL: the command is accepted unless a rule ignores it, or every domain but WAKE is stopped (R350); a doorbell is the HOST wake
source. -/
def ringBell (seat : Seat) (port : Port) (d : Dev) : Dev :=
  if d.run.st = .boot || d.clk.frozen || !portOfSeat seat port then d
  else if longOp d || (seatOf d.host seat).ring then wakeBy 0 (refuseBell seat d)
  else wakeBy 0 (acceptSeat seat port (takeUp seat d))
def execDoorbell (seat : Seat) (port : Port) (s : State) : Host.Outcome State Fault Refusal := lift (ringBell seat port) s

/-! ## Protection (R307) -/

/-- A write of PROT_SEAT by the manager seat: the generation rises. -/
def writeProt (target : Nat) (v : W64) (d : Dev) : Dev :=
  if target = 0 ∨ 3 < target then d
  else
    let d := updSeat d (seatOfNo target) fun S => { S with prot := v &&& 0xFFF0_0000_FFFF_FFFF }
    { d with host := { d.host with protGen := (d.host.protGen + 1) % 2 ^ 32 } }
/-- When no register access acts: in BOOT, in DEEP, and while the hub's clock is stopped (R348, R350, R352). -/
def noAccess (d : Dev) : Bool := d.run.st = .boot || d.clk.pw = 4 || !nocOn d.clk
/-- PROT_SEAT: read-only on other seats, whose write is one more that a long operation ignores (R300). In DEEP it is an Unsupported Request
(R358). -/
def protWrite (seat : Seat) (target : Nat) (v : W64) (d : Dev) : Dev :=
  if d.clk.pw = 4 ∧ seat ≠ .board then showBar2 true 18 0 d
  else if noAccess d then d
  else
    let d := takeUp seat d
    if seat = .manager then writeProt target v d else if longOp d then refuseSeat seat d else d
def execProtSeatWrite (seat : Seat) (target : Fin 4) (v : W64) (s : State) : Host.Outcome State Fault Refusal :=
  lift (protWrite seat target v) s

/-! ## Indirect accesses (R296, R300, R308, R355) -/

/-- A write of SN_CTRL that acts; GO is one access at a time. -/
def writeSnCtrl (seat : Seat) (v : W64) (env : PinEnv) (q : Irq) (d : Dev) : Irq × Dev :=
  let d := updSeat d seat fun S => { S with snWrite := bit v 1 }
  if !bit v 0 || (seatOf d.host seat).snGo then (q, d)
  else
    let S := seatOf d.host seat
    seatAccess (.snCtrl seat) seat S.snAddr.toNat (if bit v 1 then .write S.snData 255 else .read) env q
      (updSeat d seat fun S => { S with snGo := true })
/-- The board seat reaches its SN registers from the end of the clocks stage (R355). -/
def snOpen (seat : Seat) (d : Dev) : Bool :=
  nocOn d.clk && (d.run.st ≠ .boot || (seat = .board && decide (1 ≤ d.clk.stage)))
/-- A write of SN_CTRL, SN_ADDR or SN_DATA: each takes the port rule, none the busy rule; in DEEP it is an Unsupported Request (R358). -/
def snRegsWrite (seat : Seat) (port : Port) (off : Nat) (v : W64) (env : PinEnv) (q : Irq) (d : Dev) : Irq × Dev :=
  if d.clk.pw = 4 ∧ seat ≠ .board then (q, showBar2 true 18 0 d)
  else if !snOpen seat d then (q, d)
  else if !rightPort d seat port then (q, refuseSeat seat d)
  else
    let d := takeUp seat d
    match off with
    | 0x30 => (q, updSeat d seat fun S => { S with snAddr := v &&& 0xFF_FFFF_FFF8 })
    | 0x38 => (q, updSeat d seat fun S => { S with snData := v })
    | _ => writeSnCtrl seat v env q d
def execSnCtrlGo (seat : Seat) (port : Port) (v : W64) (env : PinEnv) (s : State) : Host.Outcome State Fault Refusal :=
  liftAll (withLinksAll (snRegsWrite seat port 0x40 (v ||| 1) env)) s

/-! ## The status mirror (Table 14.7) -/

def mirrorState (d : Dev) : W64 :=
  let r := d.run
  word [(48, 4, r.cause), (32, 16, r.reason), fb 21 d.host.upB, fb 20 d.host.upA, fb 19 r.holdTrail, fb 18 d.sys.lost, fb 17 r.stall
       , fb 16 (!(regionsIn d .torn).isEmpty), (14, 2, if longOp d then seatNo d.host.longSeat else 0), (11, 3, d.host.longKind)
       , fb 10 (longOp d), fb 8 r.midCycle, (4, 4, holdCode r), (0, 4, stCode r.st)]
def railOf (d : Dev) (i : Nat) : Nat × Nat × BitVec 16 := tget (0, 0, 0) d.th.rails i
def mirrorTemp (d : Dev) : W64 := word ((List.range 4).map fun i => (16 * i, 16, (railOf d i).2.2.toNat))
def mirrorPower (d : Dev) : W64 :=
  let mv := ((List.range 4).map fun i => (railOf d i).2.1).foldl max 0
  word [(48, 16, d.th.powerW), (32, 16, mv), (16, 16, d.th.hbmTemp.toNat), (0, 16, d.th.hubTemp.toNat)]
def mirrorProgress (d : Dev) : W64 :=
  match d.host.longKind with
  | 0 => 0
  | 4 => word [(32, 32, d.trail.rewindBytes.toNat / 2 ^ 20)]
  | 5 => word [(32, 32, d.host.dumpBytes / 2 ^ 20)]
  | _ => word [(32, 32, d.ld.framesDone), (0, 32, d.ld.expected)]
/-- The words of a refresh, from MIRROR_STATE on. -/
def mirrorWords (d : Dev) : List W64 :=
  [mirrorState d, w64 d.run.committed, word [(32, 32, (paceShown d.run).1), (0, 4, (paceShown d.run).2)], mirrorTemp d, mirrorPower d
  , mirrorProgress d, d.ld.buildId]
/-- MIRROR_REFRESH: the count is odd on the way and even after it; in DEEP, and while the hub's clock stands, the mirror is frozen. -/
def refreshMirror (d : Dev) : Dev :=
  if !nocOn d.clk then d
  else { d with host := { d.host with
    mirrorSeq := d.host.mirrorSeq + 2, mirror := (mirrorWords d).zipIdx.foldl (fun t (w, i) => tset 0 t (i + 1) w) d.host.mirror } }
def execMirrorRefresh (s : State) : Host.Outcome State Fault Refusal := lift refreshMirror s
/-- The mirror's words, as it shows them: LIMIT resets to NO_AIM. -/
def mirrorWord (d : Dev) (i : Nat) : W64 :=
  if i = 0 then d.host.mirrorSeq else if i = 3 ∧ d.host.mirrorSeq = 0 then 1 else tget 0 d.host.mirror i

/-! ## BAR0 (R294, Tables 14.9 and 14.10) -/

def portCode : Port → Nat
  | .a => 1
  | .b => 2
  | .psp => 3
/-- The control area, as it reads. -/
def controlRead (d : Dev) (seat : Seat) (off : Nat) : W64 :=
  let S := seatOf d.host seat
  match off with
  | 0x00 => moduleId d.fuse
  | 0x08 => word [(16, 16, S.version), (8, 2, if S.session ∨ seat = .board then portCode S.port else 0), (1, 2, seatNo seat), fb 0 S.session]
  | 0x10 => word [fb 0 S.ring]
  | 0x18 => word [(48, 16, S.lastReason), (32, 16, S.lastTag), fb 2 S.doorbellRefused, fb 1 S.done, fb 0 S.exec]
  | 0x20 => S.refused
  | 0x30 => S.snAddr
  | 0x38 => S.snData
  | 0x40 => word [fb 2 S.snErr, fb 1 S.snWrite, fb 0 S.snGo]
  | 0x48 => if seat = .manager then w64 S.bar2Base else 0
  | 0x50 => S.deniedCount
  | 0x58 => word [(32, 32, S.gen), fb 0 S.denied]
  | 0x108 => d.host.run.prot
  | 0x110 => d.host.diag.prot
  | 0x118 => d.host.board.prot
  | 0x120 => w64 d.host.protGen
  | _ => 0
/-- MSI-X entries of a seat. -/
def vectorsOf : Seat → Nat
  | .manager => 8
  | .run => 4
  | .debug => 4
  | .board => 0
/-- The target of a seat's entry e. -/
def targetOf (seat : Seat) (e : Nat) : Nat :=
  match seat with
  | .manager => 4 + e
  | .run => 12 + e
  | _ => 16 + e
/-- The interrupt window; a read of an IRQ_CLAIM mirror claims. -/
def windowRead (seat : Seat) (off : Nat) (q : Irq) (d : Dev) : W64 × Irq × Dev :=
  let n := vectorsOf seat
  if seat = .board then (if off < 0x1900 then alertView q ((off - 0x1800) / 8) else 0, q, d)
  else if off < 0x1800 + 16 * n then (msixWord (seatOf d.host seat) ((off - 0x1800) / 16) (off % 16 / 8), q, d)
  else if off = 0x1C00 then (pbaOf q d seat, q, d)
  else if 0x1E00 ≤ off ∧ off < 0x1E00 + 16 * n ∧ off % 16 = 0 then
    let (s, q, d) := claimAt (targetOf seat ((off - 0x1E00) / 16)) q d
    (w64 s, q, d)
  else (0, q, d)
/-- A read of the 8-byte word at a BAR0 offset; in DEEP the mirror alone answers. -/
def bar0Read (seat : Seat) (off : Nat) (q : Irq) (d : Dev) : W64 × Irq × Dev :=
  let S := seatOf d.host seat
  if 0x1400 ≤ off ∧ off < 0x1800 then (mirrorWord d ((off - 0x1400) / 8), q, d)
  else if d.clk.pw = 4 || !nocOn d.clk then (0, q, d)
  else if d.run.st = .boot then (if snOpen seat d && decide (0x30 ≤ off) && decide (off ≤ 0x40) then controlRead d seat off else 0, q, d)
  else
    let d := takeUp seat d
    if off < 0x400 then (controlRead d seat off, q, d)
    else if off < 0xC00 then (w64 (mread S.cmdBuf (off - 0x400) 8), q, d)
    else if off < 0x1400 then (w64 (mread S.rspBuf (off - 0xC00) 8), q, d)
    else windowRead seat off q d
/-- A write of the control area that no rule ignores. -/
def controlWrite (seat : Seat) (off : Nat) (v : W64) (d : Dev) : Dev :=
  match off with
  | 0x18 => updSeat d seat fun S => { S with doorbellRefused := S.doorbellRefused && !bit v 2, done := S.done && !bit v 1 }
  | 0x48 => if seat = .manager then updSeat d seat fun S => { S with bar2Base := fld v 7 0 } else d
  | 0x58 => updSeat d seat fun S => { S with denied := S.denied && !bit v 0 }
  | _ => d
/-- A write of the interrupt window: the MSI-X table, and IRQ_COMPLETE of an own vector. -/
def windowWrite (seat : Seat) (off : Nat) (v : W64) (q : Irq) (d : Dev) : Irq × Dev :=
  let n := vectorsOf seat
  if off < 0x1800 + 16 * n then
    let w := if off % 16 = 0 then v &&& ~~~3 else v &&& 0x1_FFFF_FFFF
    (q, updSeat d seat fun S => { S with msix := tset 0 S.msix ((off - 0x1800) / 8) w })
  else if 0x1E00 ≤ off ∧ off < 0x1E00 + 16 * n ∧ off % 16 = 8 then completeAt (targetOf seat ((off - 0x1E00) / 16)) v q d
  else (q, d)
/-- A write of the 8-byte word at a BAR0 offset (R293, R300). -/
def bar0Write (seat : Seat) (port : Port) (off : Nat) (v : W64) (env : PinEnv) (q : Irq) (d : Dev) : Irq × Dev :=
  if off = 0x10 ∧ bit v 0 then (q, ringBell seat port d)
  else if off = 0x28 ∧ bit v 0 then (q, abortWrite seat port d)
  else if 0x30 ≤ off ∧ off ≤ 0x40 then snRegsWrite seat port off v env q d
  else if noAccess d || !portOfSeat seat port then (q, d)
  else
    let own := rightPort d seat port
    let isProt := decide (0x108 ≤ off) && decide (off ≤ 0x118) && decide (seat = .manager)
    let isBuf := off = 0x10 || (decide (0x400 ≤ off) && decide (off < 0xC00))
    let acts := isProt || (off = 0x28 && decide (d.host.longSeat = seat))
    if (!own && !isBuf) || (longOp d && !(own && acts)) then (q, refuseSeat seat d)
    else
      let d := takeUp seat d
      if isProt then (q, writeProt ((off - 0x100) / 8) v d)
      else if off < 0x400 then (q, controlWrite seat off v d)
      else if off < 0xC00 then (q, updSeat d seat fun S => { S with cmdBuf := mwrite S.cmdBuf (off - 0x400) 8 v.toNat })
      else if 0x1800 ≤ off then windowWrite seat off v q d
      else (q, d)

/-! ## BAR2 (R293, R294, R296, R300) -/

/-- BAR2 takes naturally aligned accesses of 4 or 8 bytes. -/
def bar2Ok (offset size : Nat) : Bool := (size = 4 || size = 8) && offset % size = 0 && decide (offset < 2 ^ 32)
/-- BAR2_ACCESS: PF0's window, with the manager seat's class. -/
def bar2 (port : Port) (offset size : Nat) (acc : Access) (env : PinEnv) (q : Irq) (d : Dev) : Irq × Dev :=
  let write := isWrite acc
  if !bar2Ok offset size || !portOfSeat .manager port then (q, showBar2 write 18 0 d)
  else if d.run.st = .boot || d.clk.pw = 4 then (q, showBar2 write 18 0 d)
  else if !rightPort d .manager port then (q, showBar2 write (if write then 16 else 1) 0 (refuseSeat .manager d))
  else
    let sh := 8 * (offset % 8)
    let op : Op := match acc with
      | .read => .read
      | .write v => if size = 8 then .write v 255 else .write (v <<< sh) (0xF * 2 ^ (offset % 8))
    seatAccess (.bar2 size) .manager (d.host.manager.bar2Base * 2 ^ 32 + offset) op env q d
def execBar2Access (port : Port) (offset : Nat) (size : Nat) (acc : Access) (env : PinEnv) (s : State) :
    Host.Outcome State Fault Refusal := liftAll (withLinksAll (bar2 port offset size acc env)) s

/-! ## Host ports (R290 to R292) -/

/-- The identification registers of a function's configuration space (R291). -/
structure PciIds where
  vendor : Nat
  device : Nat
  classCode : Nat
  revision : Nat
  subVendor : Nat
  subSystem : Nat
  deriving DecidableEq, Repr
/-- What PFn reports. -/
def configIds (pf : Fin 3) (f : Fuse) : PciIds :=
  ⟨0x1F3C, 0x5240 + pf, 0x12_0000, f.stepping, 0x1F3C, f.modid.toNat⟩
/-- A configuration read of a function's identification through a host port: `none` while the port answers with Configuration Request
Retry Status (R292); the parallel slave port has no configuration space. -/
def configRead (port : Port) (pf : Fin 3) (d : Dev) : Option PciIds :=
  match port with
  | .a => if d.host.crsA then none else some (configIds pf d.fuse)
  | .b => if d.host.crsB then none else some (configIds pf d.fuse)
  | .psp => none

/-- The sessions bound to a port end. -/
def endSessions (port : Port) (d : Dev) : Dev :=
  [Seat.manager, .run, .debug].foldl (fun d s =>
    if (seatOf d.host s).session ∧ (seatOf d.host s).port = port then endSeat s d else d) d
def setUp (port : Port) (b : Bool) (d : Dev) : Dev :=
  { d with host := match port with
    | .a => { d.host with upA := b }
    | .b => { d.host with upB := b }
    | .psp => d.host }
def setCrs (port : Port) (b : Bool) (d : Dev) : Dev :=
  { d with host := match port with
    | .a => { d.host with crsA := b }
    | .b => { d.host with crsB := b }
    | .psp => d.host }
def pcieReset (port : Port) (d : Dev) : Dev := setCrs port true (setUp port false (endSessions port d))
def execPcieReset (port : Port) (s : State) : Host.Outcome State Fault Refusal := lift (pcieReset port) s
def pcieUp (port : Port) (d : Dev) : Dev := if port = .psp then d else wakeBy 3 (setUp port true d)
def execPcieLinkUp (port : Port) (s : State) : Host.Outcome State Fault Refusal := lift (pcieUp port) s
/-- A port's logic is ready again; from power-on that waits for the end of BOOT. -/
def portReady (port : Port) (d : Dev) : Dev := if d.run.st = .boot then d else setCrs port false d
def execPciePortReady (port : Port) (s : State) : Host.Outcome State Fault Refusal := lift (portReady port) s
/-- MBX_STATUS and SN_CTRL of a seat clear. -/
def clearSeat (s : Seat) (d : Dev) : Dev :=
  updSeat d s fun S => { S with lastReason := 0, lastTag := 0, doorbellRefused := false, done := false, exec := false
                                snErr := false, snWrite := false, snGo := false }
/-- The long operation is a command that came over the relay; its response goes back there (R284). -/
def longRelayed (d : Dev) : Bool :=
  match d.host.longCmd with
  | some c => c.relayed
  | none => d.host.order.any fun c => c.relayed && c.refused = 0 && ((opRow? c.opcode).map (·.long)).getD 0 ≠ 0
/-- FLR of PFn: a long operation that the seat itself started goes on, its response discarded. -/
def funcReset (port : Port) (s : Seat) (d : Dev) : Dev :=
  let S := seatOf d.host s
  if S.session ∧ S.port ≠ port then d
  else
    let long := decide (d.host.longKind ≠ 0) && decide (d.host.longKind ≠ 3) && decide (d.host.longSeat = s) && !longRelayed d
    let d := if S.session then updSeat (endSeat s d) s fun S => { S with discard := S.discard || long } else d
    clearSeat s d
def execFlr (port : Port) (pf : Fin 3) (s : State) : Host.Outcome State Fault Refusal := lift (funcReset port (seatOfNo pf)) s

/-! ## The parallel slave port (R374, R375) -/

/-- A halfword of a word. -/
def halfOf (v : W64) (h : Nat) : BitVec 16 := (v >>> (16 * h)).setWidth 16
/-- The word that a write of halfword 3 performs; halfwords not written since the last performed write are zero. -/
def pspGather (t : Tbl (BitVec 16)) (w : Nat) (d3 : BitVec 16) : W64 :=
  word [(48, 16, d3.toNat), (32, 16, (tget 0 t (4 * w + 2)).toNat), (16, 16, (tget 0 t (4 * w + 1)).toNat), (0, 16, (tget 0 t (4 * w)).toNat)]
def pspWrite (address : Nat) (x : BitVec 16) (env : PinEnv) (q : Irq) (d : Dev) : Irq × Dev :=
  let a := address % 0x4000
  if 0x3000 ≤ a then (q, d)
  else if 0x2000 ≤ a then (q, intake .board .psp (bytesOf 2 x.toNat) d)
  else
    let w := a / 8
    let h := a % 8 / 2
    if h = 3 then
      let v := pspGather d.host.pspHalf w x
      bar0Write .board .psp (8 * w) v env q { d with host := { d.host with pspHalf := [] } }
    else (q, { d with host := { d.host with pspHalf := tset 0 d.host.pspHalf (4 * w + h) x } })
def execPspWrite (address : Nat) (d : BitVec 16) (env : PinEnv) (s : State) : Host.Outcome State Fault Refusal :=
  liftAll (withLinksAll (pspWrite address d env)) s
/-- A halfword read: halfword 0 reads the word and holds it; 1 to 3 use the word held by the previous read of the same word. -/
def pspRead (address : Nat) (q : Irq) (d : Dev) : Irq × Dev :=
  let a := address % 0x4000
  let w := a / 8
  let h := a % 8 / 2
  let put (held : Option (Nat × W64)) (v : BitVec 16) (d : Dev) : Dev := { d with host := { d.host with pspRead := held, pspAnswer := v } }
  let fresh (q : Irq) (d : Dev) : Irq × Dev :=
    let (v, q, d) := bar0Read .board (8 * w) q d
    (q, put (some (w, v)) (halfOf v h) d)
  if 0x2000 ≤ a then (q, put none 0 d)
  else if h = 0 then fresh q d
  else match d.host.pspRead with
    | some (k, v) => if k = w then (q, put (some (k, v)) (halfOf v h) d) else fresh q d
    | none => fresh q d
def execPspRead (address : Nat) (s : State) : Host.Outcome State Fault Refusal := liftAll (pspRead address) s

/-! ## The SPI slave (R376) -/

def spiRead (address : Nat) : Irq → Dev → Irq × Dev := seatAccess .spi .board (address % 2 ^ 40) .read PinEnv.none
def execSpiRead (address : Nat) (s : State) : Host.Outcome State Fault Refusal := liftAll (withLinksAll (spiRead address)) s
def spiWrite (address : Nat) (v : W64) (env : PinEnv) : Irq → Dev → Irq × Dev :=
  seatAccess .spi .board (address % 2 ^ 40) (.write v 255) env
def execSpiWrite (address : Nat) (v : W64) (env : PinEnv) (s : State) : Host.Outcome State Fault Refusal :=
  liftAll (withLinksAll (spiWrite address v env)) s

/-! ## REGISTER_WRITE (R5, R294) -/

/-- The word that a write of half of it finds at a BAR0 offset: its RW fields and buffer bytes; other fields take 0. -/
def bar0Kept (seat : Seat) (off : Nat) (d : Dev) : W64 :=
  let S := seatOf d.host seat
  if off = 0x40 then word [fb 1 S.snWrite]
  else if off = 0x30 ∨ off = 0x38 ∨ off = 0x48 ∨ (0x108 ≤ off ∧ off ≤ 0x118) then controlRead d seat off
  else if 0x400 ≤ off ∧ off < 0xC00 then w64 (mread S.cmdBuf (off - 0x400) 8)
  else if 0x1800 ≤ off ∧ off < 0x1800 + 16 * vectorsOf seat then msixWord S ((off - 0x1800) / 16) (off % 16 / 8)
  else 0
/-- A write by a seat: a BAR0 offset below 0x2000, else a service-network address, of 8 bytes, or of the 4 bytes [31:0] where bit 40 of the
operand is set (log entry 99). One that is not naturally aligned is an Unsupported Request and discarded (R294), and so is every one in
DEEP but a doorbell (R358). -/
def registerWrite (seat : Seat) (port : Port) (address : Nat) (v : W64) (q : Irq) (d : Dev) : Irq × Dev :=
  let a := address % 2 ^ 40
  let half := address / 2 ^ 40 = 1
  let high := half ∧ a % 8 = 4
  let w := if high then v <<< 32 else v
  if 2 ^ 41 ≤ address ∨ a % (if half then 4 else 8) ≠ 0 then (q, showBar2 true 18 0 d)
  else if d.clk.pw = 4 ∧ port ≠ .psp ∧ ¬ (a = 0x10 ∧ bit v 0) then (q, showBar2 true 18 0 d)
  else if a < 0x2000 then
    let w := if half then maskW (if high then 0xFFFF_FFFF_0000_0000 else 0xFFFF_FFFF) (bar0Kept seat (a / 8 * 8) d) w else w
    bar0Write seat port (a / 8 * 8) w PinEnv.none q d
  else if noAccess d || !portOfSeat seat port then (q, d)
  else if !rightPort d seat port then (q, refuseSeat seat d)
  else seatAccess (.posted (.seat seat)) seat a (.write w (if !half then 255 else if high then 0xF0 else 0x0F)) PinEnv.none q d
def execRegisterWrite (seat : Seat) (port : Port) (address : Nat) (v : W64) (s : State) : Host.Outcome State Fault Refusal :=
  liftAll (withLinksAll (registerWrite seat port address v)) s

end Sys2Proof.Machine
end

