-- ==== Sys2Proof/Machine/Dispatch.lean ====
section
/-! DEFINITION. The dispatch: one arm for each command, a direct call of its meaning. -/

namespace Sys2Proof.Machine

-- exec c s is the command's effect on everything but the queue.
def exec (i : Instr) (s : State) : Host.Outcome State Fault Refusal :=
  match i with
  | .clusterStep tile cluster => Sys2Proof.Machine.execClusterStep tile cluster s
  | .barrier env => Sys2Proof.Machine.execBarrier env s
  | .hamperRearmSetup => Sys2Proof.Machine.execHamperRearmSetup s
  | .updateArrival dest => Sys2Proof.Machine.execUpdateArrival dest s
  | .markArrival dest key => Sys2Proof.Machine.execMarkArrival dest key s
  | .linkWordRx lane => Sys2Proof.Machine.execLinkWordRx lane s
  | .eocSend => Sys2Proof.Machine.execEocSend s
  | .eocReceive lane => Sys2Proof.Machine.execEocReceive lane s
  | .queueServe tile ctx hbmError => Sys2Proof.Machine.execQueueServe tile ctx hbmError s
  | .responseAvailable tile ctx => Sys2Proof.Machine.execResponseAvailable tile ctx s
  | .regionTableWrite m entry size v => Sys2Proof.Machine.execRegionTableWrite m entry size v s
  | .snHbmAccess m addr acc => Sys2Proof.Machine.execSnHbmAccess m addr acc s
  | .bankAccess m tile offset acc => Sys2Proof.Machine.execBankAccess m tile offset acc s
  | .hstreamRead m tile ctx => Sys2Proof.Machine.execHstreamRead m tile ctx s
  | .hstreamWrite m tile ctx v => Sys2Proof.Machine.execHstreamWrite m tile ctx v s
  | .reqOwnerWrite m tile bank v => Sys2Proof.Machine.execReqOwnerWrite m tile bank v s
  | .ownerHandoverDone tile bank => Sys2Proof.Machine.execOwnerHandoverDone tile bank s
  | .load seat => Sys2Proof.Machine.execLoad seat s
  | .streamLoad seat => Sys2Proof.Machine.execStreamLoad seat s
  | .intakeWrite seat port bytes => Sys2Proof.Machine.execIntakeWrite seat port bytes s
  | .imageHeader => Sys2Proof.Machine.execImageHeader s
  | .imageFrame => Sys2Proof.Machine.execImageFrame s
  | .loadEndChecks => Sys2Proof.Machine.execLoadEndChecks s
  | .loadTimeout => Sys2Proof.Machine.execLoadTimeout s
  | .abort seat port => Sys2Proof.Machine.execAbort seat port s
  | .streamDataRx => Sys2Proof.Machine.execStreamDataRx s
  | .streamTerminator => Sys2Proof.Machine.execStreamTerminator s
  | .releaseStage env => Sys2Proof.Machine.execReleaseStage env s
  | .mordantFrameCheck => Sys2Proof.Machine.execMordantFrameCheck s
  | .mordantRewrite die => Sys2Proof.Machine.execMordantRewrite die s
  | .runEnable m env => Sys2Proof.Machine.execRunEnable m env s
  | .baseCheckpoint env => Sys2Proof.Machine.execBaseCheckpoint env s
  | .run seat env => Sys2Proof.Machine.execRun seat env s
  | .runCtrlStop m => Sys2Proof.Machine.execRunCtrlStop m s
  | .stop seat => Sys2Proof.Machine.execStop seat s
  | .runCtrlForceStop m => Sys2Proof.Machine.execRunCtrlForceStop m s
  | .forceStop seat => Sys2Proof.Machine.execForceStop seat s
  | .stopAtWrite m v => Sys2Proof.Machine.execStopAtWrite m v s
  | .haltN low ns => Sys2Proof.Machine.execHaltN low ns s
  | .stopDrainComplete env => Sys2Proof.Machine.execStopDrainComplete env s
  | .internalCheckFailed => Sys2Proof.Machine.execInternalCheckFailed s
  | .watchdogExpiry => Sys2Proof.Machine.execWatchdogExpiry s
  | .paceCapRelease => Sys2Proof.Machine.execPaceCapRelease s
  | .paceWindow => Sys2Proof.Machine.execPaceWindow s
  | .setPace seat => Sys2Proof.Machine.execSetPace seat s
  | .checkpointComplete => Sys2Proof.Machine.execCheckpointComplete s
  | .trailPinWrite m v => Sys2Proof.Machine.execTrailPinWrite m v s
  | .rewind seat => Sys2Proof.Machine.execRewind seat s
  | .rewindComplete hbmError => Sys2Proof.Machine.execRewindComplete hbmError s
  | .capCtrlArm m => Sys2Proof.Machine.execCapCtrlArm m s
  | .arm seat => Sys2Proof.Machine.execArm seat s
  | .capCtrlDisarm m => Sys2Proof.Machine.execCapCtrlDisarm m s
  | .disarm seat => Sys2Proof.Machine.execDisarm seat s
  | .captureConfigWrite m offset v => Sys2Proof.Machine.execCaptureConfigWrite m offset v s
  | .basketSubmit m v => Sys2Proof.Machine.execBasketSubmit m v s
  | .submit seat => Sys2Proof.Machine.execSubmit seat s
  | .basketDelivery port => Sys2Proof.Machine.execBasketDelivery port s
  | .basketApplyCompletions => Sys2Proof.Machine.execBasketApplyCompletions s
  | .basketRingEntry => Sys2Proof.Machine.execBasketRingEntry s
  | .linkCfgWrite m lane v => Sys2Proof.Machine.execLinkCfgWrite m lane v s
  | .linkCtrlTrain m lane => Sys2Proof.Machine.execLinkCtrlTrain m lane s
  | .linkTrain seat => Sys2Proof.Machine.execLinkTrain seat s
  | .linkCtrlDown m lane => Sys2Proof.Machine.execLinkCtrlDown m lane s
  | .linkDown seat => Sys2Proof.Machine.execLinkDown seat s
  | .equaliserAdapted lane => Sys2Proof.Machine.execEqualiserAdapted lane s
  | .blockLock lane ppm => Sys2Proof.Machine.execBlockLock lane ppm s
  | .lockLoss lane => Sys2Proof.Machine.execLockLoss lane s
  | .trainBlock lane block skew => Sys2Proof.Machine.execTrainBlock lane block skew s
  | .linkNoSignal lane => Sys2Proof.Machine.execLinkNoSignal lane s
  | .linkTrainTimeout lane => Sys2Proof.Machine.execLinkTrainTimeout lane s
  | .retrainTimeout lane => Sys2Proof.Machine.execRetrainTimeout lane s
  | .frame lane header words headersValid => Sys2Proof.Machine.execFrame lane header words headersValid s
  | .idle lane block => Sys2Proof.Machine.execIdle lane block s
  | .nakResend lane => Sys2Proof.Machine.execNakResend lane s
  | .frameSend lane => Sys2Proof.Machine.execFrameSend lane s
  | .idleSend lane => Sys2Proof.Machine.execIdleSend lane s
  | .loopWrite m lane v => Sys2Proof.Machine.execLoopWrite m lane v s
  | .patCtrlWrite m lane v => Sys2Proof.Machine.execPatCtrlWrite m lane v s
  | .checkerLock lane => Sys2Proof.Machine.execCheckerLock lane s
  | .scanStart m lane v => Sys2Proof.Machine.execScanStart m lane v s
  | .scanPointDone lane errors => Sys2Proof.Machine.execScanPointDone lane errors s
  | .partnerLost lane => Sys2Proof.Machine.execPartnerLost lane s
  | .sysCtrlPlanStop m => Sys2Proof.Machine.execSysCtrlPlanStop m s
  | .planStop seat => Sys2Proof.Machine.execPlanStop seat s
  | .sysCtrlPlanRewind m => Sys2Proof.Machine.execSysCtrlPlanRewind m s
  | .planRewind seat => Sys2Proof.Machine.execPlanRewind seat s
  | .sysCtrlSettle m => Sys2Proof.Machine.execSysCtrlSettle m s
  | .settle seat => Sys2Proof.Machine.execSettle seat s
  | .pairLinkTrain => Sys2Proof.Machine.execPairLinkTrain s
  | .pairCfgWrite m v => Sys2Proof.Machine.execPairCfgWrite m v s
  | .heartbeatSend => Sys2Proof.Machine.execHeartbeatSend s
  | .heartbeat word => Sys2Proof.Machine.execHeartbeat word s
  | .heartbeatMissed => Sys2Proof.Machine.execHeartbeatMissed s
  | .mirrorSend => Sys2Proof.Machine.execMirrorSend s
  | .mirrorData word words => Sys2Proof.Machine.execMirrorData word words s
  | .mirrorDone word cycle => Sys2Proof.Machine.execMirrorDone word cycle s
  | .relay seat => Sys2Proof.Machine.execRelay seat s
  | .relayCmd word words => Sys2Proof.Machine.execRelayCmd word words s
  | .relayRsp word words => Sys2Proof.Machine.execRelayRsp word words s
  | .pairCtrlDetach m => Sys2Proof.Machine.execPairCtrlDetach m s
  | .detach seat => Sys2Proof.Machine.execDetach seat s
  | .detachMsg word => Sys2Proof.Machine.execDetachMsg word s
  | .detachAck word => Sys2Proof.Machine.execDetachAck word s
  | .detachTimeout => Sys2Proof.Machine.execDetachTimeout s
  | .pcieReset port => Sys2Proof.Machine.execPcieReset port s
  | .flr port pf => Sys2Proof.Machine.execFlr port pf s
  | .pcieLinkUp port => Sys2Proof.Machine.execPcieLinkUp port s
  | .doorbell seat port => Sys2Proof.Machine.execDoorbell seat port s
  | .hello seat => Sys2Proof.Machine.execHello seat s
  | .goodbye seat => Sys2Proof.Machine.execGoodbye seat s
  | .regRead seat => Sys2Proof.Machine.execRegRead seat s
  | .regWrite seat env => Sys2Proof.Machine.execRegWrite seat env s
  | .dump seat => Sys2Proof.Machine.execDump seat s
  | .dumpComplete => Sys2Proof.Machine.execDumpComplete s
  | .powerState seat => Sys2Proof.Machine.execPowerState seat s
  | .logRead seat => Sys2Proof.Machine.execLogRead seat s
  | .selftest seat => Sys2Proof.Machine.execSelftest seat s
  | .selftestComplete failed => Sys2Proof.Machine.execSelftestComplete failed s
  | .fwInfo seat => Sys2Proof.Machine.execFwInfo seat s
  | .fwStage seat => Sys2Proof.Machine.execFwStage seat s
  | .fwCommit seat => Sys2Proof.Machine.execFwCommit seat s
  | .fwConfirm seat => Sys2Proof.Machine.execFwConfirm seat s
  | .keySet seat => Sys2Proof.Machine.execKeySet seat s
  | .policySet seat => Sys2Proof.Machine.execPolicySet seat s
  | .snCtrlGo seat port v env => Sys2Proof.Machine.execSnCtrlGo seat port v env s
  | .bar2Access port offset size acc env => Sys2Proof.Machine.execBar2Access port offset size acc env s
  | .protSeatWrite seat target v => Sys2Proof.Machine.execProtSeatWrite seat target v s
  | .mirrorRefresh => Sys2Proof.Machine.execMirrorRefresh s
  | .snRequest p env => Sys2Proof.Machine.execSnRequest p env s
  | .snResponse node tag => Sys2Proof.Machine.execSnResponse node tag s
  | .deadTarget node => Sys2Proof.Machine.execDeadTarget node s
  | .snDeadWrite m word v => Sys2Proof.Machine.execSnDeadWrite m word v s
  | .revival node => Sys2Proof.Machine.execRevival node s
  | .domainOff d => Sys2Proof.Machine.execDomainOff d s
  | .domainWake d => Sys2Proof.Machine.execDomainWake d s
  | .snRtDataWrite m v => Sys2Proof.Machine.execSnRtDataWrite m v s
  | .snEpochSwap m v => Sys2Proof.Machine.execSnEpochSwap m v s
  | .epochDrainDone => Sys2Proof.Machine.execEpochDrainDone s
  | .irqEvent source => Sys2Proof.Machine.execIrqEvent source s
  | .irqClaim m target => Sys2Proof.Machine.execIrqClaim m target s
  | .irqComplete m target v => Sys2Proof.Machine.execIrqComplete m target v s
  | .irqSet m word v => Sys2Proof.Machine.execIrqSet m word v s
  | .irqPendingWrite m word v => Sys2Proof.Machine.execIrqPendingWrite m word v s
  | .msixMessage vector => Sys2Proof.Machine.execMsixMessage vector s
  | .traceEnable m v => Sys2Proof.Machine.execTraceEnable m v s
  | .traceDisable m v => Sys2Proof.Machine.execTraceDisable m v s
  | .traceFlushDone => Sys2Proof.Machine.execTraceFlushDone s
  | .traceFlush m => Sys2Proof.Machine.execTraceFlush m s
  | .pageFlushTimeout => Sys2Proof.Machine.execPageFlushTimeout s
  | .tracePacket source => Sys2Proof.Machine.execTracePacket source s
  | .tracePageWrite => Sys2Proof.Machine.execTracePageWrite s
  | .traceHostRdWrite m v => Sys2Proof.Machine.execTraceHostRdWrite m v s
  | .corePowerDown core addr => Sys2Proof.Machine.execCorePowerDown core addr s
  | .coreWake core => Sys2Proof.Machine.execCoreWake core s
  | .clockSourceFailure trip => Sys2Proof.Machine.execClockSourceFailure trip s
  | .clockFailStopTimeout => Sys2Proof.Machine.execClockFailStopTimeout s
  | .ioscReady => Sys2Proof.Machine.execIoscReady s
  | .xtalOk => Sys2Proof.Machine.execXtalOk s
  | .useXtal m => Sys2Proof.Machine.execUseXtal m s
  | .powerOnReset straps => Sys2Proof.Machine.execPowerOnReset straps s
  | .resetN ns => Sys2Proof.Machine.execResetN ns s
  | .resetKey m => Sys2Proof.Machine.execResetKey m s
  | .bootWatchdog => Sys2Proof.Machine.execBootWatchdog s
  | .startupStage r => Sys2Proof.Machine.execStartupStage r s
  | .tscSet m v => Sys2Proof.Machine.execTscSet m v s
  | .pwrCtrlSleep m => Sys2Proof.Machine.execPwrCtrlSleep m s
  | .pwrCtrlDeep m => Sys2Proof.Machine.execPwrCtrlDeep m s
  | .powerEntryStart => Sys2Proof.Machine.execPowerEntryStart s
  | .powerEntryDone => Sys2Proof.Machine.execPowerEntryDone s
  | .wake source => Sys2Proof.Machine.execWake source s
  | .wakeN ns => Sys2Proof.Machine.execWakeN ns s
  | .wakeTimer => Sys2Proof.Machine.execWakeTimer s
  | .powerExitDone => Sys2Proof.Machine.execPowerExitDone s
  | .thermosTick r => Sys2Proof.Machine.execThermosTick r s
  | .throttle => Sys2Proof.Machine.execThrottle s
  | .throttleStep => Sys2Proof.Machine.execThrottleStep s
  | .throttleClear => Sys2Proof.Machine.execThrottleClear s
  | .tempWarning => Sys2Proof.Machine.execTempWarning s
  | .thermalTrip => Sys2Proof.Machine.execThermalTrip s
  | .railFault die => Sys2Proof.Machine.execRailFault die s
  | .pmbAlert faults => Sys2Proof.Machine.execPmbAlert faults s
  | .wearLedgerWrite => Sys2Proof.Machine.execWearLedgerWrite s
  | .hbmcRunEnWrite m enable => Sys2Proof.Machine.execHbmcRunEnWrite m enable s
  | .pwrOkFall => Sys2Proof.Machine.execPwrOkFall s
  | .tioVddioChange bank vddio => Sys2Proof.Machine.execTioVddioChange bank vddio s
  | .pspWrite address d env => Sys2Proof.Machine.execPspWrite address d env s
  | .pspRead address => Sys2Proof.Machine.execPspRead address s
  | .spiRead address => Sys2Proof.Machine.execSpiRead address s
  | .spiWrite address v env => Sys2Proof.Machine.execSpiWrite address v env s
  | .spiWriteStatus => Sys2Proof.Machine.execSpiWriteStatus s
  | .extest => Sys2Proof.Machine.execExtest s
  | .idcode => Sys2Proof.Machine.execIdcode s
  | .samplePreload => Sys2Proof.Machine.execSamplePreload s
  | .extestPulse => Sys2Proof.Machine.execExtestPulse s
  | .extestTrain => Sys2Proof.Machine.execExtestTrain s
  | .highz => Sys2Proof.Machine.execHighz s
  | .clamp => Sys2Proof.Machine.execClamp s
  | .bypass => Sys2Proof.Machine.execBypass s
  | .registerWrite seat port address v => Sys2Proof.Machine.execRegisterWrite seat port address v s
  | .lanesDownReached lane => Sys2Proof.Machine.execLanesDownReached lane s
  | .pllRelock => Sys2Proof.Machine.execPllRelock s
  | .refclkLAppears group => Sys2Proof.Machine.execRefclkLAppears group s
  | .pciePortReady port => Sys2Proof.Machine.execPciePortReady port s
  | .tapReset => Sys2Proof.Machine.execTapReset s

end Sys2Proof.Machine
end

