-- ==== Sys2Proof/Machine/Ticks.lean ====
section
/-! DEFINITION. What one TSC cycle does when no command is waiting: the timestamp counter and the counters that count waiting time
(log entry 1). -/

namespace Sys2Proof.Machine

/-- The timestamp counter (R357): it rises by one, or loads what TSC_SET wrote. On IOSC, and across DEEP without its own clock, the
count is approximate until the next TSC_SET. -/
def tscTick (c : Clk) : Clk :=
  let rough := !c.source || (decide (c.pw = 4) && !bit c.gate 14)
  match c.tscNew with
  | some n => { c with tsc := n, tscNew := none, tscSeq := (c.tscSeq + 1) % 2 ^ 32, approx := rough }
  | none => { c with tsc := (c.tsc + 1) % 2 ^ 64, approx := c.approx || rough }

/-- The time since the first design cycle under the cap goes on, whatever TSC_SET loads (R188). A hold that reads PACE_CAP counts
(R178); one for the trail is a wait of Table 1.4 (R186). -/
def paceTick (d : Dev) : Dev :=
  let d := if d.run.st = .running ∧ d.run.paceCapUse ≠ 0 then { d with run := { d.run with capTicks := d.run.capTicks + 1 } } else d
  if holdCode d.run = 2 then { d with run := { d.run with paceCapWait := d.run.paceCapWait + 1 } }
  else if holdCode d.run = 1 then noteWait d
  else d

def barrierTick (d : Dev) : Dev :=
  if waitsForMarkers d then
    noteWait { d with exch := { d.exch with barrierWait := d.exch.barrierWait + 1 } }
  else d

/-- A link with a full replay buffer counts that; one that is UP, has nothing to resend and has room there counts while it waits for
credit (R260). -/
def stallTick (d : Dev) (l : Nat) (E : Link) : Link :=
  if replayMax d l ≤ E.replay.length then { E with replayStall := E.replayStall + 1 }
  else if linkState d l ≠ 3 ∨ E.resend < E.replay.length then E
  else
    let ready := if l = 1024 then d.pair.outbox.headD [] else E.egress
    let need := if l = 1024 then ready.length else 1
    if ready ≠ [] ∧ E.credit < need then { E with creditStall := E.creditStall + 1 } else E
def linkTicks (d : Dev) : Dev :=
  d.links.foldl (fun d' (l, _) => if lanesRun d l then updLink d' l (stallTick d l) else d') d

/-- Generators and checkers of the lanes in a loopback. -/
def laneTicks (d : Dev) : Dev := d.lanes.foldl (fun d (i, _) => if lanesRun d i then patTick i d else d) d

/-- The packets and accesses that wait for injection. -/
def waitingPackets (d : Dev) : List Packet := d.sn.waiting.map (·.1) ++ d.sn.held.map (heldPacket d)
/-- Injections that wait: for an epoch drain, or for room in a response buffer (R320, R323); eight NOC cycles pass where the NOC clock
runs. -/
def netTick (d : Dev) : Dev :=
  let l := waitingPackets d
  let blocked := l.any (fun p => blockedTo d p.dst) || (d.events.any fun e => e.sent.isNone) || pageBlocked d
    || (!d.cap.setupDue && !d.cap.heldWrites.isEmpty)
  let room := l.any fun p => !blockedTo d p.dst && nonPosted p && !hasRoom d p
  if !nocOn d.clk then d
  else updSn (fun n => { n with
    blocked := if blocked then n.blocked + 8 else n.blocked, rbWait := if room then n.rbWait + 8 else n.rbWait }) d

/-- The traced service cores run (R338). -/
def coreTicks (d : Dev) : Dev := (List.range 4).foldl (fun d c => coreTick c d) d

/-- One TSC cycle, in which a rewind also takes the banks, end checks may pass and refused commands are answered; while every domain but WAKE stays stopped there is none,
and in DEEP only the count goes on (R350, R352, R358). -/
def tick (d : Dev) : Dev :=
  if d.clk.frozen then d
  else
    let d := updClk tscTick d
    if d.clk.pw = 4 then d
    else coreTicks (netTick (laneTicks (linkTicks (barrierTick (paceTick (checksPass (rewindTakes (bktGoOn (mirrorAll (finishFirst d))))))))))

/-- The step on an empty queue. -/
def idleTick (s : State) : State := { s with dev := tick s.dev }

end Sys2Proof.Machine
end

