-- ==== Sys2Proof/Safety.lean ====
section
/-! DEFINITION. The terms in which the statements speak: what a command leaves, which parts of the module and which bytes of
memory it may change, that an access
passes the gate, and the invariants of the interrupt controller. -/

namespace Sys2Proof.Machine

/-! ## What a command leaves -/

/-- Interrupt events join those on their way to the interrupt controller. -/
def Dev.send (d : Dev) (ev : List Event) : Dev := { d with events := d.events ++ ev }
/-- The command completes and leaves the module as `d`, with the interrupt events that it sends joined behind those of `d`; the
queue and the interrupt controller are as they were. -/
def Leaves (c : Instr) (s : State) (d : Dev) : Prop :=
  ∃ ev, exec c s = .next { s with dev := d.send ev }
/-- As `Leaves`, for a command that changes the interrupt controller too. -/
def LeavesIrq (c : Instr) (s : State) (q : Irq) (d : Dev) : Prop :=
  ∃ ev, exec c s = .next { s with irq := q, dev := d.send ev }
/-- The command completes in a state of which `P` holds. -/
def Ends (c : Instr) (s : State) (P : State → Prop) : Prop := ∃ t, exec c s = .next t ∧ P t

/-- A part of the state. -/
inductive Part
  | fuse | tiles | exch | tio | mem | regions | image | ld | mordant | run | trail | cap | bkt | lanes | links | sys | pair
  | host | keep | sn | trc | clk | th | pins | free | irq
  deriving DecidableEq, Repr

/-- The part is the same in both states. -/
def Part.same (x : Part) (s t : State) : Prop :=
  match x with
  | .fuse => t.dev.fuse = s.dev.fuse
  | .tiles => t.dev.tiles = s.dev.tiles
  | .exch => t.dev.exch = s.dev.exch
  | .tio => t.dev.tio = s.dev.tio
  | .mem => t.dev.mem = s.dev.mem
  | .regions => t.dev.regions = s.dev.regions
  | .image => t.dev.image = s.dev.image
  | .ld => t.dev.ld = s.dev.ld
  | .mordant => t.dev.mordant = s.dev.mordant
  | .run => t.dev.run = s.dev.run
  | .trail => t.dev.trail = s.dev.trail
  | .cap => t.dev.cap = s.dev.cap
  | .bkt => t.dev.bkt = s.dev.bkt
  | .lanes => t.dev.lanes = s.dev.lanes
  | .links => t.dev.links = s.dev.links
  | .sys => t.dev.sys = s.dev.sys
  | .pair => t.dev.pair = s.dev.pair
  | .host => t.dev.host = s.dev.host
  | .keep => t.dev.keep = s.dev.keep
  | .sn => t.dev.sn = s.dev.sn
  | .trc => t.dev.trc = s.dev.trc
  | .clk => t.dev.clk = s.dev.clk
  | .th => t.dev.th = s.dev.th
  | .pins => t.dev.pins = s.dev.pins
  | .free => t.dev.free = s.dev.free
  | .irq => t.irq = s.irq

/-- Only the parts listed, and the interrupt events on their way, may differ. -/
def Changes (ps : List Part) (s t : State) : Prop := t.pending = s.pending ∧ ∀ x : Part, x ∉ ps → x.same s t

/-- A pulse of an interrupt source joins the events on their way. -/
abbrev Raises (src : Nat) (s t : State) : Prop := ∃ e ∈ t.dev.events.drop s.dev.events.length, e.source = src ∧ e.pulse = true

/-- No byte of a tile bank changes. -/
def BanksKeep (s t : State) : Prop := ∀ p, (tileOf t.dev p).mem = (tileOf s.dev p).mem
/-- Every cluster but cluster `c` of tile `p` is the same. -/
def OthersKeep (p c : Nat) (s t : State) : Prop :=
  ∀ p' c', (p' ≠ p ∨ c' ≠ c) → clusterOf (tileOf t.dev p') c' = clusterOf (tileOf s.dev p') c'
/-- The other clusters of tile `p` keep all but the inbound ports listed, and every cluster of another tile is the same. -/
def PortsOnly (p c : Nat) (l : List (Nat × Nat × Nat × W64)) (s t : State) : Prop :=
  (∀ p' c', p' ≠ p → clusterOf (tileOf t.dev p') c' = clusterOf (tileOf s.dev p') c') ∧
  ∀ c', c' ≠ c →
    clusterOf (tileOf t.dev p) c' = { clusterOf (tileOf s.dev p) c' with ports := (clusterOf (tileOf t.dev p) c').ports } ∧
    ∀ i, (∀ e, (p, c', i, e) ∉ l) → portOf (clusterOf (tileOf t.dev p) c') i = portOf (clusterOf (tileOf s.dev p) c') i
/-- No byte of HBM changes outside the descriptor slots named. -/
def SlotsOnly (l : List Nat) (d d' : Dev) : Prop :=
  ∀ a, (∀ base size, hbmRegion? d 3 = some (base, size) → ∀ k ∈ l, a < slotAddr base k 0 ∨ slotAddr base k 0 + 64 ≤ a) →
    hbmGet d'.mem a = hbmGet d.mem a

/-! ## Accesses -/

/-- A write of an address by a master passes the port, busy and protection rules and reaches its target, which answers OK, and leaves `d`. -/
def Passes (m : Master) (addr : Nat) (s : State) (d : Dev) : Prop := enter m addr s.dev = (0, d)
/-- An access passes these rules and reaches its target, which has not answered yet, and leaves `d`. -/
def Arrives (m : Master) (write : Bool) (addr : Nat) (s : State) (d : Dev) : Prop := gate m write (askAt write addr) s.dev = (0, d)

/-- Nothing waits to be injected but events. -/
abbrev NothingWaits (d : Dev) : Prop := d.sn.waiting = [] ∧ d.sn.held = [] ∧ d.cap.heldWrites = []

/-! ## Mailbox commands -/

/-- A wake source that finds nothing to do: it is not enabled, or the module is in RUN with no power request (R359). -/
abbrev WakesNothing (d : Dev) (w : Nat) : Prop := d.clk.wakeEn.getLsbD w = false ∨ (d.clk.pw = 0 ∧ d.clk.pwRequested = false)

/-- Fovia executes `c` next: it is the oldest accepted command, of this seat and opcode, and Fovia is free (R298). -/
def Turn (s : State) (seat : Seat) (op : Nat) (c : Cmd) (rest : List Cmd) : Prop :=
  s.dev.host.order = c :: rest ∧ c.seat = seat ∧ c.opcode = op ∧ c.refused = 0 ∧ foviaFree s.dev = true ∧
    keepReady c s.dev = true
/-- The module with the command taken from the accepted ones, and EXEC of its seat set unless it came over the pair link. -/
def taken (c : Cmd) (rest : List Cmd) (d : Dev) : Dev :=
  let d := { d with host := { d.host with order := rest } }
  if c.relayed then d else updSeat d c.seat fun S => { S with exec := true }
/-- The seat's response to `c` has a REASON: RING and EXEC are clear, DONE is set, LAST_REASON and LAST_TAG are the command's. -/
def Answered (c : Cmd) (reason : Nat) (d : Dev) : Prop :=
  let S := seatOf d.host c.seat
  S.ring = false ∧ S.exec = false ∧ S.done = true ∧ S.lastReason = reason ∧ S.lastTag = c.tag

/-! ## Basket -/

/-- Nothing delays what Basket decides, however much that is: no earlier decision waits, and its records are not traced. -/
abbrev BasketFree (d : Dev) : Prop := bktBusy d = false ∧ traceOn 0x20 d = false ∧ ∀ p ∈ d.trc.waiting, p.src ≠ 0x20
/-- The slots of submissions that Basket still has to judge. -/
def slotsLeft (d : Dev) : Nat := ((d.bkt.jobs.filter isSubmit).map jobSize).sum

/-! ## The interrupt controller -/

/-- R330, R331: at every target the claims that are not yet completed, the most recent first, have strictly falling priorities from 15
to 1: a claim is only ever taken above the one that runs. -/
def claimsOk (q : Irq) : Prop :=
  twf [] q.claims = true ∧ ∀ t l, (t, l) ∈ q.claims → (l.Pairwise fun a b => b.prio < a.prio) ∧ ∀ c ∈ l, 1 ≤ c.prio ∧ c.prio ≤ 15

end Sys2Proof.Machine
end

