-- ==== Sys2Proof/Certificates/Slice0/Obligations.lean ====
section
/-! DEFINITION. The statements for the provers. Each is about the commands it names; `Leaves` gives the whole state after a command,
`Ends` what holds of it, `Changes` the parts that may differ. -/

open Sys2Proof Sys2Proof.Machine

/-- Neither start-up, DEEP, a stopped clock nor a long operation keeps a seat's write from being judged by R306. -/
abbrev Judged (s : State) : Prop :=
  s.dev.run.st ≠ .boot ∧ s.dev.clk.pw ≠ 4 ∧ nocOn s.dev.clk = true ∧ keepOn s.dev.clk = true ∧ longOp s.dev = false

/-- A step takes the command at the front of the queue and runs it on the module with the queue's rest. -/
def Obligations.StepRunsFront : Prop :=
  ∀ (c : Instr) (rest : List Instr) (s : State), s.pending = c :: rest → step s = exec c { s with pending := rest }

/-- R24, R31, R35 to R37: a step that is admitted completes. The BPs of the cluster hold what the import phase and the evaluation
phase make of them, the cluster has moved on to the next step, or is done after step L − 1, and the work of other parts of the
module is as it was, but for the inbound ports of the own tile that are bound to the channels of the tokens sent (R71). R48: a step with an uncorrectable word abandons the design cycle and holds its cluster. R24, R107: a step that must wait
leaves its cluster where it stands, and a FIRE without room counts once. -/
def Obligations.ClusterStepCompletes : Prop :=
  (∀ (s : State) (p : Fin 528) (c : Fin 16) (ws : List (Nat × StepW × Bool)),
    let C := clusterOf (tileOf s.dev p) c
    let d := readyStep p c s.dev
    let full := s.dev.run.fullPass
    let w := plainWords ws
    let C1 := clusterOf (tileOf (if (waiting w).isSome then consume p c d else d) p) c
    cycleOpen s.dev = true → tileActive s.dev p = true → C.done = false → C.ecc = none →
    fetchStep (tileOf s.dev p) c C.step 64 = .ok ws → admission d p c full w = none →
    Ends (.clusterStep p c) s fun t =>
      let C' := clusterOf (tileOf t.dev p) c
      C'.bps = (phase3 (tileOf d p) c s.dev.image.l full C.step w none (phase2 full C.step C1 w) ⟨[], 0, 0⟩).1.bps ∧
      (C.step + 1 ≠ s.dev.image.l → C'.step = C.step + 1 ∧ C'.done = false) ∧
      (C.step + 1 = s.dev.image.l → C'.step = C.step ∧ C'.done = true) ∧
      C'.ecc = none ∧ t.dev.run.committed = s.dev.run.committed ∧
      PortsOnly p c ((phase3 (tileOf d p) c s.dev.image.l full C.step w none (phase2 full C.step C1 w) ⟨[], 0, 0⟩).2.tokens.flatMap
        fun x => if (outEntry (tileOf d p) c x.1).1 = 1 then portsOfCh d (channelNo (tileOf d p).vtile c x.1) else []) s t ∧
      BanksKeep s t ∧ t.dev.mem.hbm = s.dev.mem.hbm ∧
      Changes [.tiles, .exch, .mem, .mordant, .run, .links, .bkt, .keep, .sn, .trc, .free] s t) ∧
  (∀ (s : State) (p : Fin 528) (c : Fin 16) (b : Nat),
    let C := clusterOf (tileOf s.dev p) c
    cycleOpen s.dev = true → tileActive s.dev p = true → C.done = false → C.ecc = none →
    fetchStep (tileOf s.dev p) c C.step 64 = .error b →
    Ends (.clusterStep p c) s fun t =>
      (clusterOf (tileOf t.dev p) c).ecc = some (b, 0) ∧ (tileOf t.dev p).eccFatal = true ∧ t.dev.run.midCycle = true ∧
      t.dev.run.draining = true ∧ t.dev.run.set.getLsbD cREGION_TORN = true ∧ t.dev.run.committed = s.dev.run.committed ∧
      BanksKeep s t ∧ Changes [.tiles, .exch, .tio, .regions, .mordant, .run, .bkt, .links, .keep, .sn, .trc, .free] s t) ∧
  (∀ (s : State) (p : Fin 528) (c : Fin 16) (ws : List (Nat × StepW × Bool)) (why : Nat × Nat × Nat),
    let C := clusterOf (tileOf s.dev p) c
    cycleOpen s.dev = true → tileActive s.dev p = true → C.done = false → C.ecc = none →
    fetchStep (tileOf s.dev p) c C.step 64 = .ok ws →
    admission (readyStep p c s.dev) p c s.dev.run.fullPass (plainWords ws) = some why →
    Ends (.clusterStep p c) s fun t =>
      let C' := clusterOf (tileOf t.dev p) c
      C'.bps = C.bps ∧ C'.step = C.step ∧ C'.done = false ∧ C'.ecc = none ∧
      (why.1 = 5 → C.fireHeld = false → (tileOf t.dev p).fireFull = (tileOf s.dev p).fireFull + 1 ∧ C'.fireHeld = true) ∧
      t.dev.run.committed = s.dev.run.committed ∧ OthersKeep p c s t ∧ BanksKeep s t ∧
      Changes [.tiles, .exch, .run, .mordant, .links] s t) ∧
  (∀ (s : State) (p : Fin 528) (c : Fin 16),
    (cycleOpen s.dev = false ∨ tileActive s.dev p = false ∨ (clusterOf (tileOf s.dev p) c).done = true ∨
      (clusterOf (tileOf s.dev p) c).ecc.isSome = true) → Leaves (.clusterStep p c) s s.dev)

/-- R30, Table 2.4: the import phase of a step writes into IMP row s of each BP whose step imports the value that SEL names, as the cluster
held it before the phase, and makes the row valid; SEL = 0xFF and the other actions capture nothing.
R35 to R37: what the evaluation phase makes of one BP. A step that is not a chain step and is evaluated writes the truth-table
bit that its operands D, C, B, A select, with the change bit; a quiet one keeps the result and clears the change bit; the carry is
gone after either. A chain step's truth table is read at carry, B and A, and its upper half gives the carry onward; CHAIN_START takes
D for the carry, and a chain step is quiet when neither the carry nor an operand has changed. -/
def Obligations.EvaluateBp : Prop :=
  (∀ (T : Tile) (c L st : Nat) (full : Bool) (cy : Carry) (B : Bp) (w : StepW), st < 1024 →
    (isChain w.act = false →
      (evalBp T c L full st cy B w).2.1 = none ∧
      ((evalBp T c L full st cy B w).1.resValid.getLsbD st = true) ∧
      (quietPlain T c L full B w = true →
        (evalBp T c L full st cy B w).1.res = B.res ∧ (evalBp T c L full st cy B w).1.resChg.getLsbD st = false) ∧
      (quietPlain T c L full B w = false →
        (evalBp T c L full st cy B w).1.res.getLsbD st = w.tt.testBit
          (8 * b2n (opVal B w.opd) + 4 * b2n (opVal B w.opc) + 2 * b2n (opVal B w.opb) + b2n (opVal B w.opa)) ∧
        ((evalBp T c L full st cy B w).1.resChg.getLsbD st = true ↔
          (full = true ∨ w.tt.testBit (ttIndex B w) ≠ B.res.getLsbD st)) ∧
        ∀ j, j ≠ st → (evalBp T c L full st cy B w).1.res.getLsbD j = B.res.getLsbD j)) ∧
    (w.act = 7 → ∀ v e, cy = some (v, e) → (e = true ∨ full = true) →
      (evalBp T c L full st cy B w).1.res.getLsbD st
        = w.tt.testBit (4 * b2n v + 2 * b2n (opVal B w.opb) + b2n (opVal B w.opa)) ∧
      (evalBp T c L full st cy B w).2.1
        = some (w.tt.testBit (8 + (4 * b2n v + 2 * b2n (opVal B w.opb) + b2n (opVal B w.opa))), true)) ∧
    ((w.act = 7 ∨ w.act = 8) →
      let v := if w.act = 8 then opVal B w.opd else (cy.map (·.1)).getD false
      let carried := decide (w.act = 7) && (cy.map (·.2)).getD false
      let i := 4 * b2n v + 2 * b2n (opVal B w.opb) + b2n (opVal B w.opa)
      let moved := full || carried || [w.opa, w.opb, w.opc, w.opd].any (opChg full B)
      let r := evalBp T c L full st cy B w
      r.1.resValid.getLsbD st = true ∧
      (moved = false → r.1.res = B.res ∧ r.1.resChg.getLsbD st = false ∧ r.2.1 = some (w.tt.testBit (8 + i), false)) ∧
      (moved = true → r.1.res.getLsbD st = w.tt.testBit i ∧ r.2.1 = some (w.tt.testBit (8 + i), true) ∧
        (r.1.resChg.getLsbD st = true ↔ (full = true ∨ w.tt.testBit i ≠ B.res.getLsbD st)) ∧
        ∀ j, j ≠ st → r.1.res.getLsbD j = B.res.getLsbD j))) ∧
  (∀ (full : Bool) (C : Cluster) (st b : Nat) (w : StepW) (ws : StepWords), st < 1024 → (b, w) ∈ ws →
    ws.Pairwise (fun x y => x.1 ≠ y.1) →
    let B := bpOf C b
    let B' := bpOf (phase2 full st C ws) b
    ((imports w.act = false ∨ w.sel = 0xFF) → B' = B) ∧
    (imports w.act = true → w.sel < 208 →
      let v := if w.sel < 64 then (if st = 0 then (bpOf C w.sel).wrap else (bpOf C w.sel).res.getLsbD (st - 1))
        else if w.sel < 128 then (portOf C (w.sel - 64)).value
        else if w.sel < 192 then C.window.getLsbD (w.sel - 128)
        else C.pins.getLsbD (w.sel - 192)
      B'.imp.getLsbD st = v ∧ B'.impValid.getLsbD st = true ∧
      (B'.impChg.getLsbD st = true ↔ (full = true ∨ v ≠ B.imp.getLsbD st)) ∧
      (∀ j, j ≠ st → B'.imp.getLsbD j = B.imp.getLsbD j ∧ B'.impValid.getLsbD j = B.impValid.getLsbD j) ∧
      B'.res = B.res ∧ B'.sta = B.sta ∧ B'.wrap = B.wrap))

/-- R46 and Table 2.9: once every cluster of the ACTIVE regions has finished, every partner's marker is in and no commit entry is
uncorrectable, the barrier commits the design cycle: every BP of an ACTIVE region takes its state slots with their change bits and its
wrap latch, and its RES and IMP rows are no longer valid. R235, R237: in replay it waits until Basket has delivered what the log holds. R48: with uncorrectable commit entries it abandons the design cycle, holds each of
their clusters and commits nothing; until the module is ready for it, nothing happens.
What follows the model's choices: log entries 10, 60, 65, 86, 95. -/
def Obligations.BarrierCommits : Prop :=
  (∀ (s : State) (env : PinEnv), cycleOpen s.dev = true → s.dev.clk.frozen = false → allDone s.dev = true → markersIn s.dev = true →
    replayLeft (flushReplay (drainMesh s.dev)) = false → badCommits (countCommitFixes (flushReplay (drainMesh s.dev))) = [] →
    Ends (.barrier env) s fun t =>
      t.dev.run.committed = s.dev.run.committed + 1 ∧ (s.dev.bkt.jobs = [] → t.dev.host = s.dev.host ∧ t.dev.pair = s.dev.pair) ∧
      t.dev.run.progress = (s.dev.run.progress + 1) % 2 ^ 48 ∧
      ((∀ r, (regionOf s.dev r).rejoin = false) →
        let d := countCommitFixes (flushReplay (drainMesh s.dev))
        ∀ (p : Fin 528) (c : Fin 16) (b : Fin 64) (sta : BitVec 256) (fixes : List Nat),
        let B := bpOf (clusterOf (tileOf d p) c) b
        let B' := bpOf (clusterOf (tileOf t.dev p) c) b
        (tileActive d p = true → bpCommit (tileOf d p) c b s.dev.image.l B = .ok (sta, fixes) →
          B'.sta = sta ∧ B'.staChg = sta ^^^ B.sta ∧ B'.wrap = B.res.getLsbD (s.dev.image.l - 1) ∧ B'.resValid = 0 ∧
          B'.impValid = 0 ∧ B'.res = B.res ∧ B'.resChg = B.resChg ∧ B'.imp = B.imp ∧ B'.impChg = B.impChg) ∧
        (tileActive d p = false → B' = B)) ∧
      Changes [.tiles, .exch, .tio, .mem, .regions, .ld, .mordant, .run, .trail, .cap, .bkt, .links, .pair, .host, .keep, .sn, .trc, .clk,
        .pins, .free] s t) ∧
  (∀ (s : State) (env : PinEnv), cycleOpen s.dev = true → s.dev.clk.frozen = false → allDone s.dev = true → markersIn s.dev = true →
    let l := badCommits (countCommitFixes (flushReplay (drainMesh s.dev)))
    replayLeft (flushReplay (drainMesh s.dev)) = false → l ≠ [] →
    Ends (.barrier env) s fun t =>
      t.dev.run.committed = s.dev.run.committed ∧ t.dev.run.midCycle = true ∧ t.dev.run.draining = true ∧
      t.dev.run.set.getLsbD cREGION_TORN = true ∧
      (∀ x ∈ l, (clusterOf (tileOf t.dev x.1) x.2.1).ecc.isSome = true ∧ (tileOf t.dev x.1).eccFatal = true) ∧
      BanksKeep s t ∧ (s.dev.bkt.jobs = [] → SlotsOnly (s.dev.bkt.descs.map (·.slot)) s.dev t.dev ∧
        t.dev.host = s.dev.host ∧ t.dev.pair = s.dev.pair) ∧
      Changes [.tiles, .exch, .tio, .mem, .regions, .mordant, .run, .trail, .bkt, .links, .pair, .host, .keep, .sn, .trc, .free] s t) ∧
  (∀ (s : State) (env : PinEnv), cycleOpen s.dev = true → s.dev.clk.frozen = false → allDone s.dev = true → markersIn s.dev = true →
    replayLeft (flushReplay (drainMesh s.dev)) = true → Leaves (.barrier env) s (flushReplay (drainMesh s.dev))) ∧
  (∀ (s : State) (env : PinEnv),
    (cycleOpen s.dev = false ∨ s.dev.clk.frozen = true ∨ allDone s.dev = false ∨ markersIn s.dev = false) →
    Leaves (.barrier env) s s.dev)

/-- R45: the commit of a state slot. Slot k takes SRC where EN is 1 and keeps its value where EN is 0; a slot of another
entry keeps its value; valid bits count for nothing. At the barrier every BP of an ACTIVE region does so with all 256 of its entries at
once, against the values held before, and a slot's change bit is set exactly when its value changed. -/
def Obligations.CommitSlot : Prop :=
  (∀ (L : Nat) (B : Bp) (k j en src : Nat) (fix : Bool) (e : BitVec 32) (sta : BitVec 256) (fixes : List Nat),
    k < 256 → usedCommit L e = some (en, src, fix) →
    ∃ sta' fixes', commitSta L B [(k, e)] sta fixes = .ok (sta', fixes') ∧
      sta'.getLsbD k = (if opVal B en then opVal B src else B.sta.getLsbD k) ∧
      (j ≠ k → sta'.getLsbD j = sta.getLsbD j)) ∧
  (∀ (B : Bp) (a : Nat) (x y : BitVec 1024), opVal { B with resValid := x, impValid := y } a = opVal B a) ∧
  (∀ (s : State) (env : PinEnv), cycleOpen s.dev = true → s.dev.clk.frozen = false → allDone s.dev = true → markersIn s.dev = true →
    (∀ r, (regionOf s.dev r).rejoin = false) →
    let d := countCommitFixes (flushReplay (drainMesh s.dev))
    replayLeft (flushReplay (drainMesh s.dev)) = false → badCommits d = [] →
    Ends (.barrier env) s fun t => ∀ (p : Fin 528) (c : Fin 16) (b : Fin 64) (k : Nat), tileActive d p = true → k < 256 →
      ((storeOf (tileOf d p) kCOMMIT c).map (·.1)).Nodup →
      let B := bpOf (clusterOf (tileOf d p) c) b
      let B' := bpOf (clusterOf (tileOf t.dev p) c) b
      let entry := (lineOf (tileOf d p) kCOMMIT c (64 * b + k / 4) >>> (32 * (k % 4))).setWidth 32
      ∃ en src fix, usedCommit s.dev.image.l entry = some (en, src, fix) ∧
        B'.sta.getLsbD k = (if opVal B en then opVal B src else B.sta.getLsbD k) ∧
        (B'.staChg.getLsbD k = true ↔ B'.sta.getLsbD k ≠ B.sta.getLsbD k))

/-- R73, R74, R88: an UPDATE at the head of the mesh reaches its place. A first ordinary token whose step is not late gives the
port its value; a pin takes the value or the enable and is resolved. A refresh token gives its
value to a port that has had none in the design cycle; a word for a tile outside the ACTIVE regions is dropped (R84). -/
def Obligations.UpdateArrives : Prop :=
  (∀ (s : State) (p : Fin 528) (c : Fin 16) (i : Fin 64) (key : Nat) (w : W64) (rest : List Flit),
    s.dev.exch.mesh = .upd (.port p c i) key w :: rest → tileActive s.dev p = true → wRf w = false →
    (portOf (clusterOf (tileOf s.dev p) c) i).got = false → wStep w ≤ inSc (inEntry (tileOf s.dev p) c i) →
    Leaves (.updateArrival (.port p c i)) s
      (updPort (updTile { s.dev with exch := { s.dev.exch with mesh := rest } } p fun T => { T with tokensIn := T.tokensIn + 1 })
        p c i fun P => { P with value := wValue w, got := true })) ∧
  (∀ (s : State) (n : Fin 256) (key : Nat) (w : W64) (rest : List Flit),
    s.dev.exch.mesh = .upd (.pinValue n) key w :: rest →
    Leaves (.updateArrival (.pinValue n)) s
      { s.dev with exch := { s.dev.exch with mesh := rest }
                   tio := { s.dev.tio with val := setBit s.dev.tio.val n (wValue w), resV := setBit s.dev.tio.resV n true } }) ∧
  (∀ (s : State) (n : Fin 256) (key : Nat) (w : W64) (rest : List Flit),
    s.dev.exch.mesh = .upd (.pinEnable n) key w :: rest →
    Leaves (.updateArrival (.pinEnable n)) s
      { s.dev with exch := { s.dev.exch with mesh := rest }
                   tio := { s.dev.tio with en := setBit s.dev.tio.en n (wValue w), resE := setBit s.dev.tio.resE n true } }) ∧
  (∀ (s : State) (p : Fin 528) (c : Fin 16) (i : Fin 64) (key : Nat) (w : W64) (rest : List Flit),
    s.dev.exch.mesh = .upd (.port p c i) key w :: rest → tileActive s.dev p = true → wRf w = true →
    Leaves (.updateArrival (.port p c i)) s
      (updTile (if (portOf (clusterOf (tileOf s.dev p) c) i).got then { s.dev with exch := { s.dev.exch with mesh := rest } }
          else updPort { s.dev with exch := { s.dev.exch with mesh := rest } } p c i fun P => { P with value := wValue w }) p
        fun T => { T with tokensIn := T.tokensIn + 1 })) ∧
  (∀ (s : State) (p : Fin 528) (c : Fin 16) (i : Fin 64) (key : Nat) (w : W64) (rest : List Flit),
    s.dev.exch.mesh = .upd (.port p c i) key w :: rest → tileActive s.dev p = false →
    Ends (.updateArrival (.port p c i)) s fun t =>
      t.dev.exch.mesh.length ≤ rest.length ∧ (∀ f ∈ t.dev.exch.mesh, f ∈ rest) ∧
      (∀ q k, clusterOf (tileOf t.dev q) k = clusterOf (tileOf s.dev q) k) ∧ BanksKeep s t ∧ Changes [.exch, .tiles] s t) ∧
  (∀ (s : State) (dest : UpdDest), s.dev.exch.mesh.findIdx? (isUpd dest) = none → Leaves (.updateArrival dest) s s.dev)

/-- R78, R79: a second ordinary token of a design cycle is CONTENTION, and a token later than the declared step is
HORIZON_LATE; each requests a stop, which takes a running module to STOPPING. -/
def Obligations.ExchangeFaults : Prop :=
  ∀ (s : State) (p : Fin 528) (c : Fin 16) (i : Fin 64) (key : Nat) (w : W64) (rest : List Flit),
    s.dev.exch.mesh = .upd (.port p c i) key w :: rest → tileActive s.dev p = true → wRf w = false →
    (s.dev.run.st = .running ∨ s.dev.run.st = .releasing ∨ (s.dev.run.st = .stopping ∧ s.dev.run.draining = false)) →
    ((portOf (clusterOf (tileOf s.dev p) c) i).got = true →
      Ends (.updateArrival (.port p c i)) s fun t =>
        t.dev.exch.contBit = true ∧ t.dev.run.reqs.getLsbD 4 = true ∧
        t.dev.run.st = (if s.dev.run.st = .running then .stopping else s.dev.run.st) ∧
        (held s.dev = false → t.dev.run.draining = s.dev.run.draining ∧ t.dev.run.set = s.dev.run.set) ∧
        (portOf (clusterOf (tileOf t.dev p) c) i).value = (portOf (clusterOf (tileOf s.dev p) c) i).value ∧
        OthersKeep p c s t ∧ BanksKeep s t ∧ Changes [.tiles, .exch, .run, .bkt, .keep, .trc, .free] s t) ∧
    ((portOf (clusterOf (tileOf s.dev p) c) i).got = false → inSc (inEntry (tileOf s.dev p) c i) < wStep w →
      Ends (.updateArrival (.port p c i)) s fun t =>
        t.dev.exch.lateBit = true ∧ t.dev.run.reqs.getLsbD 5 = true ∧
        t.dev.run.st = (if s.dev.run.st = .running then .stopping else s.dev.run.st) ∧
        (held s.dev = false → t.dev.run.draining = s.dev.run.draining ∧ t.dev.run.set = s.dev.run.set) ∧
        (portOf (clusterOf (tileOf t.dev p) c) i).next = some (wValue w) ∧
        OthersKeep p c s t ∧ BanksKeep s t ∧ Changes [.tiles, .exch, .run, .bkt, .keep, .trc, .free] s t)

/-- R73: a mark that reaches a tile of an ACTIVE region raises the horizon of its key; one that reaches a TIO bank
resolves the bank's pins that the cluster drives at a step up to its own (R88). -/
def Obligations.MarkArrives : Prop :=
  (∀ (s : State) (p : Fin 528) (key : Nat) (w : W64) (rest : List Flit),
    s.dev.exch.mesh = .mark (.tile p) key w :: rest → tileActive s.dev p = true →
    Leaves (.markArrival (.tile p) key) s
      (updTile { s.dev with exch := { s.dev.exch with mesh := rest } } p fun T =>
        { T with horizon := tupd 0 T.horizon key (max (wStep w + 1)) })) ∧
  (∀ (s : State) (b : Fin 8) (key : Nat) (w : W64) (rest : List Flit),
    s.dev.exch.mesh = .mark (.bank b) key w :: rest →
    let d := { s.dev with exch := { s.dev.exch with mesh := rest } }
    Ends (.markArrival (.bank b) key) s fun t =>
      (∀ x ∈ (tileOfV? d (key / 16)).elim [] fun p => drivenPins d p (key % 16), x.1 < 256 → x.1 / 32 = b → x.2.2 ≤ wStep w →
        (if x.2.1 = 3 then t.dev.tio.resE else t.dev.tio.resV).getLsbD x.1 = true) ∧
      t.dev.tio.val = s.dev.tio.val ∧ t.dev.tio.en = s.dev.tio.en ∧ t.dev.exch.mesh = rest ∧ Changes [.exch, .tio] s t) ∧
  (∀ (s : State) (dest : MarkDest) (key : Nat), s.dev.exch.mesh.findIdx? (isMark dest key) = none →
    Leaves (.markArrival dest key) s s.dev)

/-- R80 to R82: the oldest received word of a link. An UPDATE of the open design cycle joins the mesh for each port of its link
channel; one without an ingress entry is counted and dropped; an EOC of the design cycle marks the partner as finished, and one
of another number is counted.
R81: when the fabric has finished and its pins are resolved, every partner link that has not yet been sent the marker of the
design cycle gets it behind its words, and nothing else changes; a link in STREAM mode carries no marker (R261).
What follows the model's choices: log entries 8, 9, 16. -/
def Obligations.LinkWordsAndMarkers : Prop :=
  (∀ (s : State) (lane : Fin 1024) (w : W64) (rest : List W64) (p c i : Nat) (e : W64),
    exchWords s.dev lane = w :: rest → admits s.dev w = true → wKind w = 1 →
    portsOfLch s.dev lane (fld w 15 0) = [(p, c, i, e)] →
    let d := updLink s.dev lane fun E => { E with rx := rest, freed := E.freed + 1 }
    Leaves (.linkWordRx lane) s
      { d with exch := { d.exch with
          shadow := tset 0 d.exch.shadow (lane * 65536 + fld w 15 0) (1 + b2n (wValue w))
          mesh := d.exch.mesh ++ [.upd (.port (fin p) (fin c) (fin i)) (0x2000 + lane) w] } }) ∧
  (∀ (s : State) (lane : Fin 1024) (w : W64) (rest : List W64),
    exchWords s.dev lane = w :: rest → admits s.dev w = true → wKind w = 1 → portsOfLch s.dev lane (fld w 15 0) = [] →
    Leaves (.linkWordRx lane) s
      (updLink (updLink s.dev lane fun E => { E with rx := rest, freed := E.freed + 1 }) lane fun E =>
        { E with unrouted := E.unrouted + 1 })) ∧
  (∀ (s : State) (lane : Fin 1024) (w : W64) (rest : List W64),
    exchWords s.dev lane = w :: rest → admits s.dev w = true → wKind w = 3 →
    Leaves (.linkWordRx lane) s
      (linkMark lane (wStep w) (updLink s.dev lane fun E => { E with rx := rest, freed := E.freed + 1 }))) ∧
  (∀ (s : State) (lane : Fin 1024) (w : W64) (rest : List W64),
    exchWords s.dev lane = w :: rest → admits s.dev w = true → wKind w = 4 → fld w 31 0 = curCycle s.dev % 2 ^ 32 →
    let d := updLink (updLink s.dev lane fun E => { E with rx := rest, freed := E.freed + 1 }) lane fun E =>
        { E with eocIn := true, eocCycle := fld w 31 0 }
    Leaves (.eocReceive lane) s (linkMark lane (s.dev.image.l - 1) { d with exch := { d.exch with lastLink := lane } })) ∧
  (∀ (s : State) (lane : Fin 1024) (w : W64) (rest : List W64),
    exchWords s.dev lane = w :: rest → admits s.dev w = true → wKind w = 4 → fld w 31 0 ≠ curCycle s.dev % 2 ^ 32 →
    Leaves (.eocReceive lane) s
      (updLink (updLink s.dev lane fun E => { E with rx := rest, freed := E.freed + 1 }) lane fun E =>
        { E with mismatch := E.mismatch + 1 })) ∧
  (∀ (s : State) (lane : Fin 1024) (w : W64) (rest : List W64),
    exchWords s.dev lane = w :: rest → admits s.dev w = false →
    Leaves (.linkWordRx lane) s s.dev ∧ Leaves (.eocReceive lane) s s.dev) ∧
  (∀ (s : State), cycleOpen s.dev = true → allDone s.dev = true → pinsResolved s.dev = true →
    Ends .eocSend s fun t =>
      (∀ l ∈ partnerLinks s.dev, (linkOf s.dev l).eocSent = false →
        linkOf t.dev l = { linkOf s.dev l with
          eocSent := true
          egress := if cfgMode (linkOf s.dev l).cfg = 1 then (linkOf s.dev l).egress else (linkOf s.dev l).egress ++ [wEoc (parityOf (curCycle s.dev)) s.dev.fuse.modid.toNat (curCycle s.dev)] }) ∧
      (∀ l, l ∉ partnerLinks s.dev → linkOf t.dev l = linkOf s.dev l) ∧ Changes [.links] s t) ∧
  (∀ (s : State) (lane : Fin 1024) (w : W64) (rest : List W64),
    exchWords s.dev lane = w :: rest → admits s.dev w = true → wKind w = 1 → portsOfLch s.dev lane (fld w 15 0) ≠ [] →
    let d := updLink s.dev lane fun E => { E with rx := rest, freed := E.freed + 1 }
    Leaves (.linkWordRx lane) s
      { d with exch := { d.exch with
          shadow := tset 0 d.exch.shadow (lane * 65536 + fld w 15 0) (1 + b2n (wValue w))
          mesh := d.exch.mesh ++ (portsOfLch s.dev lane (fld w 15 0)).map fun x =>
            .upd (.port (fin x.1) (fin x.2.1) (fin x.2.2.1)) (0x2000 + lane) w } })

/-- R102, R103, R105: a queue controller serves the oldest request of a context. A read of HBM or of a tile bank answers the word
and writes nothing; an acknowledged write records the old word in the trail, if there is one, writes the enabled bytes, and leaves
every other byte as it was. R101, R112, R114, R234: it serves the oldest request that has not been served, of whatever operation and kind of
context: a post stages a completion or holds its item, a take answers the oldest item or waits for one, a failed request answers
nothing; a bank that the fabric has lost makes the request a MEMORY_BOUNDS. R103, R106: a failed request behind a take that waits for an item keeps
its place, but in a drain before STOPPED it is served. R19: the completion of a take on a port without BASKET_DONE is staged with the
cycle of the FIRE. R181: an uncorrectable HBM error takes the module to FAULTED.
What follows the model's choices: log entries 38, 87. -/
def Obligations.QueueServes : Prop :=
  (∀ (s : State) (p : Fin 528) (q : Fin 512) (e : QEnt) (rest : List QEnt),
    let g := ctxCfg (tileOf s.dev p) q
    serving s.dev = true → (ctxOf (tileOf s.dev p) q).ents = e :: rest → e.served = false → e.failed = false →
    (g.kind = 0 ∧ bankServes (bankOf (tileOf s.dev p) (wordBank g e.addr)) .fabric = true ∨ g.kind = 1 ∧ s.dev.clk.frozen = false) → e.op = 0 →
    Leaves (.queueServe p q false) s
      (updCtx s.dev p q fun X => { X with ents := { e with served := true, resp := oldWord p g e s.dev } :: rest })) ∧
  (∀ (s : State) (p : Fin 528) (q : Fin 512) (e : QEnt) (rest : List QEnt),
    let g := ctxCfg (tileOf s.dev p) q
    let a := g.base + e.addr * g.wsize
    serving s.dev = true → (ctxOf (tileOf s.dev p) q).ents = e :: rest → e.served = false → e.failed = false →
    g.kind = 1 → s.dev.clk.frozen = false → e.op = 2 →
    Ends (.queueServe p q false) s fun t =>
      t.dev.mem = hbmPutBe s.dev.mem a g.wsize e.data.toNat e.be ∧
      t.dev.tiles = (updCtx s.dev p q fun X => { X with ents := { e with served := true, resp := 0 } :: rest }).tiles ∧
      (∀ x, x < a ∨ a + g.wsize ≤ x → hbmGet t.dev.mem x = hbmGet s.dev.mem x) ∧
      Changes [.tiles, .mem, .trail] s t) ∧
  (∀ (s : State) (p : Fin 528) (q : Fin 512) (e : QEnt) (rest : List QEnt),
    let g := ctxCfg (tileOf s.dev p) q
    let a := g.base + e.addr * g.wsize
    serving s.dev = true → (tileOf s.dev p).placed = true → (ctxOf (tileOf s.dev p) q).ents = e :: rest →
    e.served = false → e.failed = false → g.kind = 0 → bankServes (bankOf (tileOf s.dev p) (wordBank g e.addr)) .fabric = true →
    e.op = 2 →
    Ends (.queueServe p q false) s fun t =>
      (tileOf t.dev p).mem = mwriteBe (tileOf s.dev p).mem a g.wsize e.data.toNat e.be ∧
      (∀ x, x < a ∨ a + g.wsize ≤ x → mget (tileOf t.dev p).mem x = mget (tileOf s.dev p).mem x) ∧
      (∀ p', p' ≠ p.val → tileOf t.dev p' = tileOf s.dev p') ∧
      Changes [.tiles, .trail] s t) ∧
  (∀ (s : State) (p : Fin 528) (q : Fin 512) (i : Nat) (e : QEnt),
    let g := ctxCfg (tileOf s.dev p) q
    let X := ctxOf (tileOf s.dev p) q
    serving s.dev = true → s.dev.clk.frozen = false → X.ents.findIdx? (fun e => !e.served) = some i → X.ents[i]? = some e →
    e.failed = false → (g.kind = 0 ∧ bankServes (bankOf (tileOf s.dev p) (wordBank g e.addr)) .fabric = true ∨ g.kind = 1) →
    (e.op = 0 → Leaves (.queueServe p q false) s (updCtx s.dev p q fun X =>
      { X with ents := X.ents.set i { e with served := true, resp := oldWord p g e s.dev } })) ∧
    (e.op ≠ 0 → Ends (.queueServe p q false) s fun t =>
      t.dev.tiles = (updCtx (performWrite p q g e s.dev) p q (settleEnt i { e with served := true
                                                                                   resp := if e.op = 3 then oldWord p g e s.dev else 0 })).tiles ∧
      t.dev.mem = (performWrite p q g e s.dev).mem ∧ t.dev.trail = (performWrite p q g e s.dev).trail ∧
      (g.kind = 1 → t.dev.mem = hbmPutBe s.dev.mem (g.base + e.addr * g.wsize) g.wsize e.data.toNat e.be ∧ BanksKeep s t) ∧
      (g.kind = 0 → t.dev.mem = s.dev.mem ∧ (∀ p', p' ≠ p.val → tileOf t.dev p' = tileOf s.dev p') ∧
        ∀ x, x < g.base + e.addr * g.wsize ∨ g.base + e.addr * g.wsize + g.wsize ≤ x →
          mget (tileOf t.dev p).mem x = mget (tileOf s.dev p).mem x) ∧
      Changes [.tiles, .mem, .trail] s t)) ∧
  (∀ (s : State) (p : Fin 528) (q : Fin 512) (i : Nat) (e : QEnt),
    let g := ctxCfg (tileOf s.dev p) q
    let X := ctxOf (tileOf s.dev p) q
    serving s.dev = true → s.dev.clk.frozen = false → X.ents.findIdx? (fun e => !e.served) = some i → X.ents[i]? = some e →
    e.failed = true → Leaves (.queueServe p q false) s (updCtx s.dev p q (settleEnt i { e with served := true }))) ∧
  (∀ (s : State) (p : Fin 528) (q : Fin 512) (i : Nat) (e : QEnt),
    let g := ctxCfg (tileOf s.dev p) q
    let X := ctxOf (tileOf s.dev p) q
    serving s.dev = true → s.dev.clk.frozen = false → X.ents.findIdx? (fun e => !e.served) = some i → X.ents[i]? = some e →
    e.failed = false → g.kind = 0 → bankServes (bankOf (tileOf s.dev p) (wordBank g e.addr)) .fabric = false →
    Ends (.queueServe p q false) s fun t =>
      t.dev.mem.bounds = true ∧ t.dev.mem.hbm = s.dev.mem.hbm ∧ (tileOf t.dev p).memBounds = (tileOf s.dev p).memBounds + 1 ∧
      BanksKeep s t ∧
      t.dev.keep.logNext = s.dev.keep.logNext + 1 ∧ Changes [.tiles, .mem, .run, .keep, .sn, .trc, .free] s t) ∧
  (∀ (s : State) (p : Fin 528) (q : Fin 512) (i : Nat) (e : QEnt),
    let g := ctxCfg (tileOf s.dev p) q
    let X := ctxOf (tileOf s.dev p) q
    serving s.dev = true → s.dev.clk.frozen = false → X.ents.findIdx? (fun e => !e.served) = some i → X.ents[i]? = some e →
    e.failed = false → g.kind = 3 →
    Leaves (.queueServe p q false) s (if stagedFull s.dev || X.ents.any (·.item) then updCtx s.dev p q (settleEnt i { e with served := true, item := true })
      else updCtx { s.dev with bkt := { s.dev.bkt with staged := s.dev.bkt.staged ++ [(g.base % 4096, e.cycle, e.data)] } } p q
        (settleEnt i { e with served := true }))) ∧
  (∀ (s : State) (p : Fin 528) (q : Fin 512) (i : Nat) (e : QEnt),
    let g := ctxCfg (tileOf s.dev p) q
    let X := ctxOf (tileOf s.dev p) q
    serving s.dev = true → s.dev.clk.frozen = false → X.ents.findIdx? (fun e => !e.served) = some i → X.ents[i]? = some e →
    e.failed = false → g.kind = 4 →
    Leaves (.queueServe p q false) s (updCtx s.dev p q fun X =>
      { X with ents := X.ents.set i { e with served := true, item := true }, count := X.count + 1 })) ∧
  (∀ (s : State) (p : Fin 528) (q : Fin 512) (i : Nat) (e : QEnt) (v : W64) (rest : List W64),
    let g := ctxCfg (tileOf s.dev p) q
    let X := ctxOf (tileOf s.dev p) q
    serving s.dev = true → s.dev.clk.frozen = false → X.ents.findIdx? (fun e => !e.served) = some i → X.ents[i]? = some e →
    e.failed = false → (g.kind = 2 ∨ g.kind = 5) → X.items = v :: rest →
    (g.kind = 2 → hasDone s.dev (g.base % 4096) = true) →
    Leaves (.queueServe p q false) s (updCtx s.dev p q fun X =>
      { settleEnt i { e with served := true, resp := v } X with items := rest, flows := X.flows.tail, count := X.count + 1 })) ∧
  (∀ (s : State) (p : Fin 528) (q : Fin 512) (i : Nat) (e : QEnt) (v : W64) (rest : List W64),
    let g := ctxCfg (tileOf s.dev p) q
    let X := ctxOf (tileOf s.dev p) q
    serving s.dev = true → s.dev.clk.frozen = false → X.ents.findIdx? (fun e => !e.served) = some i → X.ents[i]? = some e →
    e.failed = false → g.kind = 2 → X.items = v :: rest → hasDone s.dev (g.base % 4096) = false →
    Leaves (.queueServe p q false) s (if stagedFull s.dev then s.dev else
      updCtx { s.dev with bkt := { s.dev.bkt with staged := s.dev.bkt.staged ++ [(g.base % 4096, takeCycle s.dev (g.base % 4096) e.cycle, 0)] } } p q fun X =>
        { settleEnt i { e with served := true, resp := v } X with items := rest, flows := X.flows.tail, count := X.count + 1 })) ∧
  (∀ (s : State) (p : Fin 528) (q : Fin 512) (i : Nat) (e : QEnt),
    let g := ctxCfg (tileOf s.dev p) q
    let X := ctxOf (tileOf s.dev p) q
    serving s.dev = true → s.dev.clk.frozen = false → X.ents.findIdx? (fun e => !e.served) = some i → X.ents[i]? = some e →
    e.failed = false → (g.kind = 2 ∨ g.kind = 5) → X.items = [] → inDrain s.dev = false → Leaves (.queueServe p q false) s s.dev) ∧
  (∀ (s : State) (p : Fin 528) (q : Fin 512) (e f : QEnt) (rest : List QEnt),
    let X := ctxOf (tileOf s.dev p) q
    serving s.dev = true → s.dev.clk.frozen = false → isTake (ctxCfg (tileOf s.dev p) q).kind = true → X.items = [] →
    X.ents = e :: f :: rest → e.served = false → e.failed = false → f.served = false → f.failed = true →
    Leaves (.queueServe p q false) s
      (if inDrain s.dev then updCtx s.dev p q (settleEnt 1 { f with served := true }) else s.dev)) ∧
  (∀ (s : State) (p : Fin 528) (q : Fin 512), serving s.dev = true → s.dev.clk.frozen = false → readsHbm s.dev p q = true →
    s.dev.run.st = .running →
    Ends (.queueServe p q true) s fun t =>
      t.dev.run.st = .faulted ∧ Raises 0x017 s t ∧ t.dev.run.fault = 0x0325 ∧ t.dev.run.committed = s.dev.run.committed) ∧
  (∀ (s : State) (p : Fin 528) (q : Fin 512) (err : Bool),
    (serving s.dev = false ∨ (ctxOf (tileOf s.dev p) q).ents.findIdx? (fun e => !e.served) = none) →
    Leaves (.queueServe p q err) s s.dev)

/-- R103: the oldest served request that responds makes its response available to WAIT; R119: the last access in flight hands a bank
over. R120: a mapped bank changes hands in LOADED and STOPPED alone; R155: a bank of a tile whose load is not complete does not. -/
def Obligations.ResponseAndHandover : Prop :=
  (∀ (s : State) (p : Fin 528) (q : Fin 512) (e : QEnt) (rest : List QEnt),
    (ctxOf (tileOf s.dev p) q).ents = e :: rest → e.served = true → responds e.op = true → e.avail = false →
    Leaves (.responseAvailable p q) s (updCtx s.dev p q fun X => { X with ents := { e with avail := true } :: rest })) ∧
  (∀ (s : State) (p : Fin 528) (b : Fin 16), (tileOf s.dev p).loaded = true → (bankOf (tileOf s.dev p) b).draining = true →
    Leaves (.ownerHandoverDone p b) s (updBank s.dev p b fun B => { B with owner := B.req, draining := false })) ∧
  (∀ (s : State) (m : Master) (p : Fin 528) (b : Fin 16) (v : W64) (d : Dev),
    Passes m (aTile p (0x1180 + 8 * b)) s d → bit v 11 = false → (tileOf d p).loaded = true →
    ((mappedBanks (tileOf d p)).contains b.val = false ∨ d.run.st = .loaded ∨ d.run.st = .stopped) →
    Leaves (.reqOwnerWrite m p b v) s (updBank d p b fun B => { B with req := ownerOf (fld v 9 8), draining := true })) ∧
  (∀ (s : State) (m : Master) (p : Fin 528) (b : Fin 16) (v : W64) (d : Dev),
    Passes m (aTile p (0x1180 + 8 * b)) s d → bit v 11 = false → (tileOf d p).loaded = true →
    (mappedBanks (tileOf d p)).contains b.val = true → d.run.st ≠ .loaded → d.run.st ≠ .stopped →
    Leaves (.reqOwnerWrite m p b v) s (logOpen (updBank d p b fun B => { B with refused := true }))) ∧
  (∀ (s : State) (m : Master) (p : Fin 528) (b : Fin 16) (v : W64) (d : Dev),
    Passes m (aTile p (0x1180 + 8 * b)) s d → bit v 11 = false → (tileOf d p).loaded = false →
    Leaves (.reqOwnerWrite m p b v) s (updBank d p b fun B => { B with req := ownerOf (fld v 9 8) }))

/-- R92: the HBM region table. A write by the manager seat in IDLE, LOADED or STOPPED sets the writable bits of the entry's half; in
any other state it sets HBM_TABLE_REFUSED alone; any other master's write changes nothing further. -/
def Obligations.RegionTable : Prop :=
  (∀ (s : State) (i : Fin 16) (v : W64) (d : Dev),
    Passes (.seat .manager) (aRun (0x600 + 16 * i)) s d → (d.run.st = .idle ∨ d.run.st = .loaded ∨ d.run.st = .stopped) →
    bit (tget 0 d.mem.regionSize i) 63 = false →
    Leaves (.regionTableWrite (.seat .manager) i false v) s
      { d with mem := { d.mem with regionBase := tset 0 d.mem.regionBase i (v &&& 0x0000_003F_FFE0_0000) } }) ∧
  (∀ (s : State) (i : Fin 16) (v : W64) (d : Dev),
    Passes (.seat .manager) (aRun (0x600 + 16 * i + 8)) s d → (d.run.st = .idle ∨ d.run.st = .loaded ∨ d.run.st = .stopped) →
    bit (tget 0 d.mem.regionSize i) 63 = false → bit v 63 = false →
    Ends (.regionTableWrite (.seat .manager) i true v) s fun t =>
      t.dev.mem = { d.mem with regionSize := tset 0 d.mem.regionSize i (v &&& 0xF000_003F_FFE0_0000) } ∧
      Changes [.host, .mem, .sn] { s with dev := d } t) ∧
  (∀ (s : State) (i : Fin 16) (v : W64) (d : Dev),
    Passes (.seat .manager) (aRun (0x600 + 16 * i)) s d → d.run.st ≠ .idle → d.run.st ≠ .loaded → d.run.st ≠ .stopped →
    Leaves (.regionTableWrite (.seat .manager) i false v) s (logOpen { d with mem := { d.mem with regionRefused := true } })) ∧
  (∀ (s : State) (i : Fin 16) (size : Bool) (v : W64) (x : Seat), Judged s → x ≠ .manager →
    Leaves (.regionTableWrite (.seat x) i size v) s (seatError (.seat x) false (denySeat x (takeUp x s.dev)))) ∧
  (∀ (s : State) (i : Fin 16) (v : W64) (d : Dev) (m : Master),
    m ≠ .seat .manager → Passes m (aRun (0x600 + 16 * i)) s d → Leaves (.regionTableWrite m i false v) s d) ∧
  (∀ (s : State) (i : Fin 16) (size : Bool) (v : W64) (d : Dev),
    Passes (.seat .manager) (aRun (0x600 + 16 * i + 8 * b2n size)) s d → (d.run.st = .idle ∨ d.run.st = .loaded ∨ d.run.st = .stopped) →
    Ends (.regionTableWrite (.seat .manager) i size v) s fun t =>
      t.dev.mem.regionBase = (if size then d.mem.regionBase else tset 0 d.mem.regionBase i (v &&& 0x0000_003F_FFE0_0000)) ∧
      t.dev.mem.regionSize = (if size then tset 0 d.mem.regionSize i (v &&& 0xF000_003F_FFE0_0000) else d.mem.regionSize) ∧
      t.dev.run = d.run ∧ t.dev.tiles = d.tiles ∧ (d.cap.armed = false → t.dev.mem.hbm = d.mem.hbm) ∧
      Changes [.mem, .trail, .cap, .trc, .host, .sn, .keep, .free] { s with dev := d } t)

/-- R94: an aligned access to HBM outside every enabled region, once the HBM stage has passed, reads or writes the eight bytes at its
address and no other byte. R95: during a run a write to a design region is refused and counted, and counts otherwise; R229: one to the
ring or to a busy slot of the BASKET region is refused. -/
def Obligations.HbmAccess : Prop :=
  (∀ (s : State) (m : Master) (a : Nat) (d : Dev), a % 8 = 0 → a < 0x30_0000_0000 → Arrives m false a s d → 4 ≤ d.clk.stage →
    regionAt d a = none → Leaves (.snHbmAccess m a .read) s (reply m false a 0 (w64 (hbmRead d.mem a 8)) d)) ∧
  (∀ (s : State) (m : Master) (a : Nat) (v : W64) (d : Dev), a % 8 = 0 → a < 0x30_0000_0000 → Arrives m true a s d → 4 ≤ d.clk.stage →
    regionAt d a = none →
    Leaves (.snHbmAccess m a (.write v)) s
      (reply m true a 0 0 (putHbm a 8 v.toNat d))) ∧
  (∀ (s : State) (m : Master) (a : Nat) (v : W64) (d : Dev) (t : State), a % 8 = 0 → a < 0x30_0000_0000 → Arrives m true a s d →
    4 ≤ d.clk.stage → regionAt d a = none → exec (.snHbmAccess m a (.write v)) s = .next t →
    ∀ x, x < a ∨ a + 8 ≤ x → hbmGet t.dev.mem x = hbmGet s.dev.mem x) ∧
  (∀ (s : State) (m : Master) (a base size : Nat) (v : W64) (d : Dev), a % 8 = 0 → a < 0x30_0000_0000 → 4 ≤ d.clk.stage →
    (Arrives m false a s d → regionAt d a = some (0, base, size) →
      Leaves (.snHbmAccess m a .read) s (reply m false a 0 (w64 (hbmRead d.mem a 8)) d)) ∧
    (Arrives m true a s d → regionAt d a = some (0, base, size) → d.run.st = .running →
      Leaves (.snHbmAccess m a (.write v)) s (reply m true a 1 0 { d with mem := { d.mem with hbmRefused := d.mem.hbmRefused + 1 } })) ∧
    (Arrives m true a s d → regionAt d a = some (0, base, size) → (d.run.st = .loaded ∨ d.run.st = .stopped) →
      Leaves (.snHbmAccess m a (.write v)) s (reply m true a 0 0 { d with
        mem := { hbmPut d.mem a 8 v.toNat with hostWrites := d.mem.hostWrites + 1 } }))) ∧
  (∀ (s : State) (m : Master) (a base size : Nat) (v : W64) (d : Dev), a % 8 = 0 → a < 0x30_0000_0000 → Arrives m true a s d →
    4 ≤ d.clk.stage →
    (regionAt d a = some (3, base, size) → a - base < 0x10_0000 → Leaves (.snHbmAccess m a (.write v)) s
      (reply m true a 1 0 { d with bkt := { d.bkt with hostWriteRefused := d.bkt.hostWriteRefused + 1 } })) ∧
    (regionAt d a = some (3, base, size) → 0x10_0000 ≤ a - base → slotBusy d ((a - base - 0x10_0000) / 64) = false →
      Leaves (.snHbmAccess m a (.write v)) s
        (reply m true a 0 0 (putHbm a 8 v.toNat d)))) ∧
  (∀ (s : State) (m : Master) (a : Nat) (d : Dev), Arrives m false a s d → d.clk.stage < 4 →
    Leaves (.snHbmAccess m a .read) s (reply m false a 1 0 d))

/-- R118: a bank answers the masters that count as its owner, and not while it drains; every other access answers an access error and
counts in the conflict register of the master's class. R155: until its tile's load completes it answers nobody. R121: a write to a mapped
bank counts.
What follows the model's choices: log entry 28. -/
def Obligations.BankAccess : Prop :=
  (∀ (s : State) (m : Master) (p : Fin 528) (off : Nat) (d : Dev),
    let B := bankOf (tileOf d p) (off / 0x4_0000 % 16)
    Arrives m false (aBank p off) s d → off % 8 = 0 → off < 0x40_0000 → B.owner = masterOwner m → B.draining = false →
    awaitsLoad d p = false →
    Leaves (.bankAccess m p off .read) s (reply m false (aBank p off) 0 (w64 (mread (tileOf d p).mem off 8)) d)) ∧
  (∀ (s : State) (m : Master) (p : Fin 528) (off : Nat) (v : W64) (d : Dev),
    let B := bankOf (tileOf d p) (off / 0x4_0000 % 16)
    Arrives m true (aBank p off) s d → off % 8 = 0 → off < 0x40_0000 → B.owner = masterOwner m → B.draining = false →
    awaitsLoad d p = false → (mappedBanks (tileOf d p)).contains (off / 0x4_0000 % 16) = false →
    Leaves (.bankAccess m p off (.write v)) s
      (reply m true (aBank p off) 0 0 (updTile d p fun T => { T with mem := mwrite T.mem off 8 v.toNat }))) ∧
  (∀ (s : State) (m : Master) (p : Fin 528) (off : Nat) (v : W64) (d : Dev),
    let B := bankOf (tileOf d p) (off / 0x4_0000 % 16)
    Arrives m true (aBank p off) s d → (B.owner ≠ masterOwner m ∨ B.draining = true) →
    Leaves (.bankAccess m p off (.write v)) s
      (reply m true (aBank p off) 1 0
        (updTile d p fun T => { T with conflict := tupd 0 T.conflict (masterClass m) (· + 1) }))) ∧
  (∀ (s : State) (m : Master) (p : Fin 528) (off : Nat) (v : W64) (d : Dev),
    let B := bankOf (tileOf d p) (off / 0x4_0000 % 16)
    Arrives m true (aBank p off) s d → B.owner = masterOwner m → B.draining = false → (tileOf d p).loaded = false →
    Leaves (.bankAccess m p off (.write v)) s (reply m true (aBank p off) 1 0 d)) ∧
  (∀ (s : State) (m : Master) (p : Fin 528) (off : Nat) (v : W64) (d : Dev),
    let B := bankOf (tileOf d p) (off / 0x4_0000 % 16)
    Arrives m true (aBank p off) s d → off % 8 = 0 → off < 0x40_0000 → B.owner = masterOwner m → B.draining = false →
    awaitsLoad d p = false → (mappedBanks (tileOf d p)).contains (off / 0x4_0000 % 16) = true →
    Leaves (.bankAccess m p off (.write v)) s
      (reply m true (aBank p off) 0 0 { (updTile d p fun T => { T with mem := mwrite T.mem off 8 v.toNat }) with
        mem := { d.mem with hostWrites := d.mem.hostWrites + 1 } })) ∧
  (∀ (s : State) (m : Master) (p : Fin 528) (off : Nat) (d : Dev),
    let B := bankOf (tileOf d p) (off / 0x4_0000 % 16)
    Arrives m false (aBank p off) s d → (B.owner ≠ masterOwner m ∨ B.draining = true) →
    Leaves (.bankAccess m p off .read) s
      (reply m false (aBank p off) 1 0
        (updTile d p fun T => { T with conflict := tupd 0 T.conflict (masterClass m) (· + 1) })))

/-- R112 to R116: a host stream. A read of an HSTREAM_IN context takes the oldest item that a posted request holds, with VALID, and keeps
it as the last value; a write of an HSTREAM_OUT context with LAST completes a packet, stored behind its length.
R113, R114: a read of a context with no item shows the idle service or sets UNDERRUN; a write joins the open packet, closes it, or sets
OVERRUN; a context of another kind reads as zero and takes nothing. R300: a seat's read during a long operation returns zero. -/
def Obligations.HostStreams : Prop :=
  (∀ (s : State) (x : Seat) (p : Fin 528) (q : Fin 512) (e : QEnt) (rest : List QEnt) (d : Dev),
    let g := ctxCfg (tileOf d p) q
    Arrives (.seat x) false (aTile p (0x7000 + 8 * q)) s d → longOp d = false → ctxReady d p = true →
    g.kind = 4 → g.valid = true → (ctxOf (tileOf d p) q).ents = e :: rest → e.item = true → e.op = 2 →
    Leaves (.hstreamRead (.seat x) p q) s
      (reply (.seat x) false (aTile p (0x7000 + 8 * q)) 0 (word [fb 32 true, (0, 32, e.data.toNat)])
        (updCtx d p q fun X => { X with ents := { e with item := false } :: rest, last := e.data.setWidth 32 }))) ∧
  (∀ (s : State) (m : Master) (p : Fin 528) (q : Fin 512) (v : W64) (d : Dev),
    let g := ctxCfg (tileOf d p) q
    Arrives m true (aTile p (0x7000 + 8 * q)) s d → ctxReady d p = true → g.kind = 5 → g.valid = true →
    (ctxOf (tileOf d p) q).openPkt = none → occupancy 5 (ctxOf (tileOf d p) q) + 2 ≤ g.depth →
    bit v 33 = false → bit v 32 = true →
    Leaves (.hstreamWrite m p q v) s
      (reply m true (aTile p (0x7000 + 8 * q)) 0 0 (updCtx d p q fun X =>
        { X with openPkt := none, items := X.items ++ [1, (v.setWidth 32).setWidth 64] }))) ∧
  (∀ (s : State) (m : Master) (p : Fin 528) (q : Fin 512) (v : W64) (d : Dev),
    let g := ctxCfg (tileOf d p) q
    Arrives m true (aTile p (0x7000 + 8 * q)) s d → ctxReady d p = true → g.kind = 5 → g.valid = true →
    (ctxOf (tileOf d p) q).openPkt = none → g.depth < occupancy 5 (ctxOf (tileOf d p) q) + 2 → bit v 33 = false →
    Leaves (.hstreamWrite m p q v) s
      (reply m true (aTile p (0x7000 + 8 * q)) 1 0 (updCtx d p q fun X => { X with overrun := true }))) ∧
  (∀ (s : State) (m : Master) (p : Fin 528) (q : Fin 512) (d : Dev),
    let g := ctxCfg (tileOf d p) q
    let a := aTile p (0x7000 + 8 * q)
    Arrives m false a s d → (longOp d = false ∨ ∀ x, m ≠ .seat x) → ctxReady d p = true →
    ((g.kind ≠ 4 ∨ g.valid = false) → Leaves (.hstreamRead m p q) s (reply m false a 0 0 d)) ∧
    (g.kind = 4 → g.valid = true → (ctxOf (tileOf d p) q).ents.findIdx? (·.item) = none →
      Leaves (.hstreamRead m p q) s (if idleService d p then reply m false a 0 (word [fb 33 true]) d
        else reply m false a 0 (word [(0, 32, (ctxOf (tileOf d p) q).last.toNat)]) (updCtx d p q fun X => { X with underrun := true }))) ∧
    (∀ i e, g.kind = 4 → g.valid = true → (ctxOf (tileOf d p) q).ents.findIdx? (·.item) = some i →
      (ctxOf (tileOf d p) q).ents[i]? = some e →
      Leaves (.hstreamRead m p q) s (reply m false a 0 (word [fb 32 true, (0, 32, e.data.toNat)])
        (updCtx d p q fun X => { settleEnt i { e with item := false } X with last := e.data.setWidth 32 })))) ∧
  (∀ (s : State) (x : Seat) (p : Fin 528) (q : Fin 512) (d : Dev),
    let a := aTile p (0x7000 + 8 * q)
    Arrives (.seat x) false a s d → ctxReady d p = true → longOp d = true →
    Leaves (.hstreamRead (.seat x) p q) s (reply (.seat x) false a 0 0 (refuseSeat x d))) ∧
  (∀ (s : State) (m : Master) (p : Fin 528) (q : Fin 512) (v : W64) (d : Dev),
    let g := ctxCfg (tileOf d p) q
    let X := ctxOf (tileOf d p) q
    let a := aTile p (0x7000 + 8 * q)
    let free := g.depth - occupancy 5 X
    Arrives m true a s d → ctxReady d p = true →
    ((g.kind ≠ 5 ∨ g.valid = false) → Leaves (.hstreamWrite m p q v) s (reply m true a 0 0 d)) ∧
    (∀ l, g.kind = 5 → g.valid = true → X.openPkt = some l →
      (bit v 33 = true → Leaves (.hstreamWrite m p q v) s (reply m true a 0 0 (updCtx d p q fun X =>
        { X with openPkt := none, items := X.items ++ w64 l.length :: l }))) ∧
      (bit v 33 = false → free = 0 → Leaves (.hstreamWrite m p q v) s
        (reply m true a 1 0 (updCtx d p q fun X => { X with overrun := true }))) ∧
      (bit v 33 = false → free ≠ 0 → bit v 32 = true → Leaves (.hstreamWrite m p q v) s (reply m true a 0 0 (updCtx d p q fun X =>
        { X with openPkt := none
                 items := X.items ++ w64 (l ++ [(v.setWidth 32).setWidth 64]).length :: (l ++ [(v.setWidth 32).setWidth 64]) }))) ∧
      (bit v 33 = false → free ≠ 0 → bit v 32 = false → Leaves (.hstreamWrite m p q v) s (reply m true a 0 0 (updCtx d p q fun X =>
        { X with openPkt := some (l ++ [(v.setWidth 32).setWidth 64]) })))) ∧
    (g.kind = 5 → g.valid = true → X.openPkt = none → bit v 33 = true →
      Leaves (.hstreamWrite m p q v) s (if free = 0 then reply m true a 1 0 (updCtx d p q fun X => { X with overrun := true })
        else reply m true a 0 0 (updCtx d p q fun X => { X with openPkt := none, items := X.items ++ [0] }))) ∧
    (g.kind = 5 → g.valid = true → X.openPkt = none → bit v 33 = false → bit v 32 = false → 2 ≤ free →
      Leaves (.hstreamWrite m p q v) s (reply m true a 0 0 (updCtx d p q fun X =>
        { X with openPkt := some [(v.setWidth 32).setWidth 64] }))))

/-- R146, R166: a LOAD that names no map, taken in IDLE, LOADED, STOPPED, RUNNING or FAULTED while no load is under way, waits for a header; in
another state it is refused with WRONG_STATE, which LOAD_STATUS shows too. R295: the bytes that came ahead of it are its first, or are
discarded.
What follows the model's choices: log entries 43, 85. -/
def Obligations.LoadBegins : Prop :=
  (∀ (s : State) (x : Seat) (c : Cmd) (rest : List Cmd), Turn s x 0x0201 c rest →
    s.dev.ld.phase = .none → bit (c.par 1) 0 = false → loadState s.dev.run.st = true → jtagTest s.dev = false →
    4 ≤ s.dev.clk.stage →
    Leaves (.load x) s (updLd (fun L => { L with
      isStream := false, seat := x, phase := .header, phaseShown := 1, map := none, ahead := []
      intake := L.ahead, arrived := L.ahead.length })
        (startLong 1 c (taken c rest s.dev)))) ∧
  (∀ (s : State) (x : Seat) (c : Cmd) (rest : List Cmd), Turn s x 0x0201 c rest → c.relayed = false →
    (seatOf s.dev.host x).discard = false →
    s.dev.ld.phase = .none → bit (c.par 1) 0 = false → loadState s.dev.run.st = false →
    Ends (.load x) s fun t =>
      t.dev.ld.reason = 4 ∧ t.dev.ld.refused = true ∧ t.dev.ld.done = false ∧ t.dev.ld.phase = .none ∧ t.dev.ld.ahead = [] ∧ Raises 0x012 s t ∧
      t.dev.host.longKind = restKind s.dev ∧ Answered c 4 t.dev ∧ Changes [.ld, .host, .keep, .free] s t)

/-- R158: a STREAM_LOAD begins a stream load in the same way, with a new stream.
What follows the model's choices: log entry 47. -/
def Obligations.StreamLoadBegins : Prop :=
  ∀ (s : State) (x : Seat) (c : Cmd) (rest : List Cmd), Turn s x 0x0202 c rest →
    s.dev.ld.phase = .none → loadState s.dev.run.st = true → jtagTest s.dev = false → 4 ≤ s.dev.clk.stage →
    s.dev.ld.ahead = [] →
    Ends (.streamLoad x) s fun t =>
      t.dev.ld.phase = .header ∧ t.dev.ld.isStream = true ∧ t.dev.ld.strActive = true ∧ t.dev.ld.strKept = false ∧
      t.dev.ld.strImages = 0 ∧ t.dev.host.longKind = 2 ∧ t.dev.host.longSeat = c.seat ∧ t.dev.host.longCmd = some c ∧
      Changes [.ld, .host, .links] s t

/-- R295, R152: an intake write of the seat whose load waits for it, through its own port, joins the bytes that have arrived; what is
beyond the image's length, as its header gives it once that has come, is discarded with an access error; bytes of a load whose turn has not
come wait apart. R158: in a stream load the bytes are the stream's, and those of the kept image join it. R300: one
of another seat is ignored and counted.
What follows the model's choices: log entry 85. -/
def Obligations.IntakeWrite : Prop :=
  (∀ (s : State) (x : Seat) (port : Port) (b : List Byte), s.dev.run.st ≠ .boot → s.dev.clk.pw ≠ 4 → nocOn s.dev.clk = true →
    rightPort s.dev x port = true → s.dev.host.longSeat = x → s.dev.host.longKind = 1 → s.dev.host.longCmd.isSome = true →
    s.dev.ld.phase = .frames → s.dev.ld.arrived + b.length ≤ s.dev.ld.hdr.len →
    Leaves (.intakeWrite x port b) s
      (answer 0 0 (updLd (fun L => { L with intake := L.intake ++ b, arrived := L.arrived + b.length }) (takeUp x s.dev)))) ∧
  (∀ (s : State) (x : Seat) (port : Port) (b : List Byte), s.dev.run.st ≠ .boot → s.dev.clk.pw ≠ 4 → nocOn s.dev.clk = true →
    rightPort s.dev x port = true → s.dev.host.longSeat ≠ x →
    Leaves (.intakeWrite x port b) s (refuseSeat x (takeUp x s.dev))) ∧
  (∀ (s : State) (x : Seat) (port : Port) (b : List Byte),
    let h := (s.dev.ld.intake ++ b).take 256
    let fits := min b.length (max 256 (leAt h 0x18 8) - s.dev.ld.arrived)
    s.dev.run.st ≠ .boot → s.dev.clk.pw ≠ 4 → nocOn s.dev.clk = true →
    rightPort s.dev x port = true → s.dev.host.longSeat = x → s.dev.host.longKind = 1 → s.dev.host.longCmd.isSome = true →
    s.dev.ld.phase = .header →
    (h.length < 256 → Leaves (.intakeWrite x port b) s
      (answer 0 0 (updLd (fun L => { L with intake := L.intake ++ b, arrived := L.arrived + b.length }) (takeUp x s.dev)))) ∧
    (h.length = 256 → Leaves (.intakeWrite x port b) s
      (answer (if fits = b.length then 0 else 1) 0
        (updLd (fun L => { L with intake := L.intake ++ b.take fits, arrived := L.arrived + fits }) (takeUp x s.dev))))) ∧
  (∀ (s : State) (x : Seat) (port : Port) (b : List Byte), s.dev.run.st ≠ .boot → s.dev.clk.pw ≠ 4 → nocOn s.dev.clk = true →
    rightPort s.dev x port = true → s.dev.host.longSeat = x → s.dev.host.longKind = 1 → s.dev.host.longCmd.isSome = true →
    s.dev.ld.phase = .frames → s.dev.ld.hdr.len < s.dev.ld.arrived + b.length →
    let fits := s.dev.ld.hdr.len - s.dev.ld.arrived
    Leaves (.intakeWrite x port b) s
      (answer 1 0 (updLd (fun L => { L with intake := L.intake ++ b.take fits, arrived := L.arrived + fits }) (takeUp x s.dev)))) ∧
  (∀ (s : State) (x : Seat) (port : Port) (b : List Byte), s.dev.run.st ≠ .boot → s.dev.clk.pw ≠ 4 → nocOn s.dev.clk = true →
    rightPort s.dev x port = true → s.dev.host.longSeat = x → (s.dev.host.longKind = 1 ∨ s.dev.host.longKind = 2) →
    s.dev.host.longCmd = none → (s.dev.ld.ahead ++ b).length < 256 →
    Leaves (.intakeWrite x port b) s (answer 0 0 (updLd (fun L => { L with ahead := L.ahead ++ b }) (takeUp x s.dev)))) ∧
  (∀ (s : State) (x : Seat) (port : Port) (b : List Byte), s.dev.run.st ≠ .boot → s.dev.clk.pw ≠ 4 → nocOn s.dev.clk = true →
    rightPort s.dev x port = true → s.dev.host.longSeat = x → s.dev.host.longKind = 2 → s.dev.host.longCmd.isSome = true →
    s.dev.ld.strActive = true → s.dev.ld.strBuf = [] → b.length ≤ s.dev.ld.strSkip →
    Ends (.intakeWrite x port b) s fun t =>
      t.dev.ld.strBytes = s.dev.ld.strBytes + w64 b.length ∧ t.dev.ld.strSkip = s.dev.ld.strSkip - b.length ∧ t.dev.ld.strBuf = [] ∧
      t.dev.ld.intake = s.dev.ld.intake ++ (if s.dev.ld.strKeeping then b else []) ∧ t.dev.ld.phase = s.dev.ld.phase ∧
      t.dev.ld.strActive = true ∧ Changes [.ld, .links, .host] s t)

/-- R147, R148: a header that fails a check is refused with its code, and leaves every region, the fabric and the module state as
they were; a full image's header that passes discards the image before it and takes the module to LOADING; a partial image's
leaves the module state, and in RUNNING waits for the barrier that isolates the regions it names.
What follows the model's choices: log entry 43. -/
def Obligations.HeaderJudged : Prop :=
  (∀ (s : State) (code off : Nat), s.dev.ld.phase = .header → 256 ≤ s.dev.ld.intake.length → s.dev.ld.isStream = false →
    headerCheck s.dev (s.dev.ld.intake.take 256) = some (code, off) →
    Ends .imageHeader s fun t =>
      t.dev.ld.reason = code ∧ t.dev.ld.refused = true ∧ t.dev.ld.done = false ∧
      t.dev.ld.detail = detailWord 0 0 off 0 0 0 0 0 0 ∧ t.dev.ld.phase = .none ∧ t.dev.host.longKind = restKind s.dev ∧
      Raises 0x012 s t ∧ Changes [.ld, .host, .trail, .pair, .keep, .free] s t) ∧
  (∀ (s : State), s.dev.ld.phase = .header → 256 ≤ s.dev.ld.intake.length →
    headerCheck s.dev (s.dev.ld.intake.take 256) = none → (parseHeader (s.dev.ld.intake.take 256)).isPartial = false →
    Ends .imageHeader s fun t =>
      t.dev.run.st = .loading ∧ t.dev.run.committed = 0 ∧ t.dev.ld.phase = .frames ∧ t.dev.ld.framesDone = 0 ∧
      t.dev.ld.hdr = parseHeader (s.dev.ld.intake.take 256) ∧ t.dev.ld.expected = t.dev.ld.hdr.frames ∧
      (s.dev.cap.armed = false → t.dev.mem.hbm = s.dev.mem.hbm ∧ t.dev.mem.stale = s.dev.mem.stale) ∧ (s.dev.run.st ≠ .loading → Raises 0x017 s t) ∧
      Changes [.tiles, .exch, .tio, .mem, .regions, .ld, .mordant, .run, .trail, .cap, .bkt, .links, .keep, .sn, .trc, .free] s t) ∧
  (∀ (s : State) (code off : Nat), s.dev.ld.phase = .header → 256 ≤ s.dev.ld.intake.length → s.dev.ld.isStream = true →
    headerCheck s.dev (s.dev.ld.intake.take 256) = some (code, off) →
    Ends .imageHeader s fun t =>
      t.dev.ld.reason = code ∧ t.dev.ld.refused = true ∧ t.dev.ld.done = false ∧ t.dev.ld.phase = .none ∧
      Raises 0x012 s t ∧ Changes [.ld, .host, .trail, .pair, .keep, .free] s t) ∧
  (∀ (s : State), s.dev.ld.phase = .header → 256 ≤ s.dev.ld.intake.length →
    headerCheck s.dev (s.dev.ld.intake.take 256) = none → (parseHeader (s.dev.ld.intake.take 256)).isPartial = true →
    Ends .imageHeader s fun t =>
      t.dev.ld.hdr = parseHeader (s.dev.ld.intake.take 256) ∧ t.dev.ld.expected = t.dev.ld.hdr.frames ∧ t.dev.ld.frameSeq = 0 ∧
      t.dev.ld.plan = planOf s.dev t.dev.ld.hdr ∧ t.dev.run.st = s.dev.run.st ∧ t.dev.run.committed = s.dev.run.committed ∧
      (s.dev.run.st ≠ .running → t.dev.ld.phase = .frames) ∧
      (s.dev.run.st = .running → t.dev.ld.phase = .waiting ∧ (∀ x ∈ t.dev.ld.plan, (regionOf t.dev x.2).isolatePend = true) ∧
        Changes [.regions, .ld] s t) ∧
      ((s.dev.run.st = .running ∨ (s.dev.cap.armed = false ∧ drained s.dev = true)) → t.dev.mem.hbm = s.dev.mem.hbm ∧ t.dev.mem.stale = s.dev.mem.stale) ∧
      Changes [.tiles, .exch, .tio, .mem, .regions, .ld, .mordant, .run, .trail, .cap, .bkt, .links, .keep, .sn, .trc, .free] s t) ∧
  (∀ (s : State), (s.dev.ld.phase ≠ .header ∨ s.dev.ld.intake.length < 256) → Leaves .imageHeader s s.dev)

/-- R149: a frame that passes its checks is taken in; its region becomes RELOADING; the last one begins the end checks. One that
fails a check refuses the load with its code and detail.
What follows the model's choices: log entry 42. -/
def Obligations.FrameTaken : Prop :=
  (∀ (s : State) (p : Nat), let f := parseFrame (s.dev.ld.intake.take 4160)
    s.dev.ld.phase = .frames → 4160 ≤ s.dev.ld.intake.length → s.dev.ld.aborting = false →
    s.dev.ld.frameSeq + 1 ≠ s.dev.ld.hdr.frames →
    let d := updLd (fun L => { L with
      intake := L.intake.drop 4160
      manifest := if L.hdr.signed then L.manifest ++ s.dev.ld.intake.take 4160 else [] }) s.dev
    frameCheck d f = none → planTile? d f.vtile = some p →
    Leaves .imageFrame s
      (updLd (fun L => { L with frameSeq := L.frameSeq + 1, framesDone := L.frameSeq + 1 })
        (putFrame p f (updRegion d (tileRegion d.fuse p) fun R => { R with st := .reloading })))) ∧
  (∀ (s : State) (p : Nat), let f := parseFrame (s.dev.ld.intake.take 4160)
    s.dev.ld.phase = .frames → 4160 ≤ s.dev.ld.intake.length → s.dev.ld.aborting = false →
    s.dev.ld.frameSeq + 1 = s.dev.ld.hdr.frames →
    let d := updLd (fun L => { L with
      intake := L.intake.drop 4160
      manifest := if L.hdr.signed then L.manifest ++ s.dev.ld.intake.take 4160 else [] }) s.dev
    frameCheck d f = none → planTile? d f.vtile = some p →
    Leaves .imageFrame s
      (updLd (fun L => { L with frameSeq := L.frameSeq + 1, framesDone := L.frameSeq + 1, phase := .checks, phaseShown := 3 })
        (putFrame p f (updRegion d (tileRegion d.fuse p) fun R => { R with st := .reloading })))) ∧
  (∀ (s : State) (code : Nat) (detail : W64), s.dev.ld.phase = .frames → 4160 ≤ s.dev.ld.intake.length →
    let d := updLd (fun L => { L with
      intake := L.intake.drop 4160
      manifest := if L.hdr.signed then L.manifest ++ s.dev.ld.intake.take 4160 else [] }) s.dev
    frameCheck d (parseFrame (s.dev.ld.intake.take 4160)) = some (code, detail) →
    Ends .imageFrame s fun t =>
      t.dev.ld.reason = code ∧ t.dev.ld.refused = true ∧ t.dev.ld.done = false ∧ t.dev.ld.detail = detail ∧
      Raises 0x012 s t ∧ t.dev.ld.phase = .none ∧ t.dev.run.committed = s.dev.run.committed) ∧
  (∀ (s : State), (s.dev.ld.phase ≠ .frames ∨ s.dev.ld.intake.length < 4160) → Leaves .imageFrame s s.dev)

/-- R151: the end checks of a full image pass: its regions are ACTIVE and the module is LOADED; those of a partial image leave
the module state and the image. A failed check refuses the load.
What follows the model's choices: log entries 42, 44. -/
def Obligations.LoadCompletes : Prop :=
  (∀ (s : State), s.dev.ld.phase = .checks → endCheck s.dev = none → s.dev.ld.hdr.isPartial = false →
    Ends .loadEndChecks s fun t =>
      t.dev.run.st = .loaded ∧ t.dev.ld.done = true ∧ t.dev.ld.refused = false ∧ t.dev.ld.phase = .none ∧
      t.dev.image = s.dev.ld.hdr ∧ t.dev.ld.buildId = s.dev.ld.hdr.buildId ∧
      (∀ v r, (v, r) ∈ s.dev.ld.plan → (regionOf t.dev r).st = .active ∧ (regionOf t.dev r).placed = true) ∧
      (s.dev.cap.armed = false → s.dev.bkt.jobs = [] → (∀ x ∈ s.dev.bkt.descs, x.st ≠ 3) →
        t.dev.mem.hbm = s.dev.mem.hbm ∧ t.dev.mem.stale = s.dev.mem.stale) ∧ (s.dev.run.st ≠ .loaded → Raises 0x017 s t) ∧
      Changes [.tiles, .exch, .tio, .mem, .regions, .image, .ld, .run, .trail, .cap, .bkt, .links, .pair, .host, .keep, .sn, .trc,
        .clk, .free] s t) ∧
  (∀ (s : State), s.dev.ld.phase = .checks → endCheck s.dev = none → s.dev.ld.hdr.isPartial = true →
    Ends .loadEndChecks s fun t =>
      t.dev.ld.done = true ∧ t.dev.ld.refused = false ∧ t.dev.ld.phase = .none ∧ t.dev.ld.buildId = s.dev.ld.hdr.buildId ∧
      t.dev.run.st = s.dev.run.st ∧ t.dev.run.committed = s.dev.run.committed ∧ t.dev.image = s.dev.image ∧
      (s.dev.cap.armed = false → s.dev.bkt.jobs = [] → (∀ x ∈ s.dev.bkt.descs, x.st ≠ 3) →
        t.dev.mem.hbm = s.dev.mem.hbm ∧ t.dev.mem.stale = s.dev.mem.stale) ∧ Changes [.tiles, .exch, .tio, .mem, .regions, .ld, .mordant, .run, .trail, .cap, .bkt, .links, .pair, .host, .keep, .sn, .trc,
        .free] s t) ∧
  (∀ (s : State) (code : Nat) (detail : W64), s.dev.ld.phase = .checks → endCheck s.dev = some (code, detail) →
    Ends .loadEndChecks s fun t =>
      t.dev.ld.reason = code ∧ t.dev.ld.refused = true ∧ t.dev.ld.done = false ∧ t.dev.ld.detail = detail ∧
      Raises 0x012 s t ∧ t.dev.ld.phase = .none ∧ t.dev.run.committed = s.dev.run.committed) ∧
  (∀ (s : State), s.dev.ld.phase ≠ .checks → Leaves .loadEndChecks s s.dev)

/-- R152, R153: a load that waits for its header too long is refused with 0x0240, and one that its own seat aborts is answered ABORTED;
neither touches a region. R160: a stream that stalls with no image of its own under way, or after its own was refused in the middle,
ends with 0x0240. An ABORT that comes once route entries are being written sets ABORT_LATE alone. R205: one
of a REWIND ends it in STOPPED, or comes too late; R304: one of a DUMP stops it at a boundary; R301: another seat's is ignored and counted.
What follows the model's choices: log entry 43. -/
def Obligations.LoadEnded : Prop :=
  (∀ (s : State), s.dev.ld.phase = .header → s.dev.ld.isStream = false → s.dev.ld.intake.length < 256 →
    Ends .loadTimeout s fun t =>
      t.dev.ld.reason = 0x0240 ∧ t.dev.ld.refused = true ∧ t.dev.ld.phase = .none ∧ t.dev.host.longKind = restKind s.dev ∧
      Changes [.ld, .host, .trail, .pair, .keep, .free] s t) ∧
  (∀ (s : State) (x : Seat) (port : Port) (c : Cmd), s.dev.run.st ≠ .boot → s.dev.clk.pw ≠ 4 → rightPort s.dev x port = true →
    s.dev.host.longSeat = x → s.dev.host.longKind = 1 → s.dev.host.longCmd = some c → s.dev.ld.phase = .header →
    s.dev.ld.isStream = false → c.relayed = false → (seatOf s.dev.host c.seat).discard = false →
    Ends (.abort x port) s fun t =>
      t.dev.ld.reason = 5 ∧ t.dev.ld.refused = true ∧ t.dev.ld.phase = .none ∧ t.dev.host.longKind = restKind s.dev ∧ Answered c 5 t.dev ∧
      Changes [.ld, .host, .keep, .free] s t) ∧
  (∀ (s : State) (x : Seat) (port : Port) (c : Cmd), s.dev.run.st ≠ .boot → s.dev.clk.pw ≠ 4 → rightPort s.dev x port = true →
    s.dev.host.longSeat = x → s.dev.host.longKind = 1 → s.dev.host.longCmd = some c → s.dev.ld.phase = .checks →
    s.dev.ld.routing = true →
    Leaves (.abort x port) s (updLd (fun L => { L with abortLate := true }) (takeUp x s.dev))) ∧
  (∀ (s : State), s.dev.ld.phase = .frames → s.dev.ld.arrived < s.dev.ld.hdr.len →
    Ends .loadTimeout s fun t =>
      t.dev.ld.reason = 0x0240 ∧ t.dev.ld.refused = true ∧ t.dev.ld.phase = .none ∧ t.dev.run.committed = s.dev.run.committed) ∧
  (∀ (s : State), s.dev.ld.phase = .checks → Leaves .loadTimeout s s.dev) ∧
  (∀ (s : State), s.dev.ld.phase = .none → s.dev.ld.strActive = true → (s.dev.ld.strKept = false ∨ s.dev.ld.strCut = true) →
    Ends .loadTimeout s fun t =>
      t.dev.ld.strActive = false ∧ t.dev.ld.strResult = 0x0240 ∧ t.dev.ld.strBuf = [] ∧ s.dev.keep.logNext < t.dev.keep.logNext ∧
      (2 ≤ s.dev.host.longKind → s.dev.host.longKind ≤ 3 → t.dev.host.longKind = 0) ∧
      Changes [.ld, .host, .trail, .pair, .keep, .free] s t) ∧
  (∀ (s : State), s.dev.ld.phase = .none → (s.dev.ld.strActive = false ∨ s.dev.ld.strKept = true ∧ s.dev.ld.strCut = false) →
    Leaves .loadTimeout s s.dev) ∧
  (∀ (s : State) (x : Seat) (port : Port) (c : Cmd), s.dev.run.st ≠ .boot → s.dev.clk.pw ≠ 4 → rightPort s.dev x port = true →
    s.dev.host.longSeat = x → s.dev.host.longKind = 1 → s.dev.host.longCmd = some c → s.dev.ld.phase = .frames →
    s.dev.ld.intake ≠ [] →
    Leaves (.abort x port) s (updLd (fun L => { L with aborting := true }) (takeUp x s.dev))) ∧
  (∀ (s : State) (x : Seat) (port : Port) (c : Cmd), s.dev.run.st = .rewinding → s.dev.clk.pw ≠ 4 → rightPort s.dev x port = true →
    s.dev.host.longSeat = x → s.dev.host.longKind = 4 → s.dev.host.longCmd = some c → c.relayed = false →
    (seatOf s.dev.host c.seat).discard = false →
    (s.dev.trail.banksTaken = false → Ends (.abort x port) s fun t =>
      t.dev.run.st = .stopped ∧ t.dev.trail.rewinding = false ∧ t.dev.run.committed = s.dev.run.committed ∧ Answered c 5 t.dev ∧
      Changes [.run, .trail, .host, .keep, .sn, .trc, .free] s t) ∧
    (s.dev.trail.banksTaken = true →
      Leaves (.abort x port) s { takeUp x s.dev with trail := { s.dev.trail with abortLate := true } })) ∧
  (∀ (s : State) (x : Seat) (port : Port) (c : Cmd), s.dev.run.st ≠ .boot → s.dev.clk.pw ≠ 4 → rightPort s.dev x port = true →
    s.dev.host.longSeat = x → s.dev.host.longKind = 5 → s.dev.host.longCmd = some c →
    Leaves (.abort x port) s (let d := takeUp x s.dev; { d with host := { d.host with dumpAbort := true } })) ∧
  (∀ (s : State) (x : Seat) (port : Port), s.dev.run.st ≠ .boot → s.dev.clk.pw ≠ 4 →
    (rightPort s.dev x port = false → Leaves (.abort x port) s (refuseSeat x s.dev)) ∧
    (rightPort s.dev x port = true → longOp s.dev = false → Leaves (.abort x port) s (takeUp x s.dev)) ∧
    (rightPort s.dev x port = true → longOp s.dev = true → s.dev.host.longSeat ≠ x →
      Leaves (.abort x port) s (refuseSeat x (takeUp x s.dev))))

/-- R159, R160: bytes received on lanes 0 to 7 as one STREAM link are a stream, under the busy rule; while a load is under way the stream
goes on, and the bytes of its kept image alone join that image; the terminator with its checksum and
its count ends it, and one that fails them ends it with 0x0240.
What follows the model's choices: log entries 47, 85. -/
def Obligations.Streams : Prop :=
  (∀ (s : State), cfgOn (linkCfg s.dev 0) = true → cfgMode (linkCfg s.dev 0) = 1 → cfgWidth (linkCfg s.dev 0) = 3 →
    (linkOf s.dev 0).rx ≠ [] → s.dev.host.longKind = 0 →
    Ends .streamDataRx s fun t =>
      (linkOf t.dev 0).rx = [] ∧ t.dev.host.longKind = 3 ∧ t.dev.ld.strActive = true ∧ t.dev.ld.strLanes = true ∧
      t.dev.ld.strBytes = s.dev.ld.strBytes + w64 (8 * (linkOf s.dev 0).rx.length) ∧
      Changes [.ld, .links, .host, .keep, .free] s t) ∧
  (∀ (s : State), let b := bytesOfWords (linkOf s.dev 0).rx
    cfgOn (linkCfg s.dev 0) = true → cfgMode (linkCfg s.dev 0) = 1 → cfgWidth (linkCfg s.dev 0) = 3 →
    (linkOf s.dev 0).rx ≠ [] → s.dev.host.longKind ≠ 2 → s.dev.ld.strActive = true → s.dev.ld.strBuf = [] → b.length ≤ s.dev.ld.strSkip →
    Ends .streamDataRx s fun t =>
      (linkOf t.dev 0).rx = [] ∧ t.dev.ld.strBytes = s.dev.ld.strBytes + w64 b.length ∧ t.dev.ld.strBuf = [] ∧
      t.dev.ld.strSkip = s.dev.ld.strSkip - b.length ∧ t.dev.ld.strActive = true ∧ t.dev.ld.phase = s.dev.ld.phase ∧
      t.dev.ld.intake = s.dev.ld.intake ++ (if s.dev.ld.strKeeping then b else []) ∧
      t.dev.ld.arrived = s.dev.ld.arrived + (if s.dev.ld.strKeeping then b.length else 0) ∧
      t.dev.host.longKind = (if s.dev.host.longKind = 0 then 3 else s.dev.host.longKind) ∧
      (s.dev.host.longKind ≠ 0 → t.dev.host = s.dev.host) ∧ Changes [.ld, .links, .host] s t) ∧
  (∀ (s : State), cfgOn (linkCfg s.dev 0) = true → cfgMode (linkCfg s.dev 0) = 1 → cfgWidth (linkCfg s.dev 0) = 3 →
    (linkOf s.dev 0).rx ≠ [] → s.dev.host.longKind ≠ 2 → s.dev.ld.strActive = true →
    Ends .streamDataRx s fun t =>
      (linkOf t.dev 0).rx = [] ∧ t.dev.ld.strActive = true ∧ t.dev.ld.strLanes = true ∧
      t.dev.ld.strBytes = s.dev.ld.strBytes + w64 (8 * (linkOf s.dev 0).rx.length) ∧
      t.dev.host.longKind = (if s.dev.host.longKind = 0 then 3 else s.dev.host.longKind) ∧
      (s.dev.host.longKind = 1 → t.dev.ld.intake = s.dev.ld.intake ∨ s.dev.ld.strKeeping = true) ∧
      Changes [.ld, .links, .host, .keep, .free] s t) ∧
  (∀ (s : State), let b := s.dev.ld.strBuf.take 16
    s.dev.ld.strActive = true → s.dev.ld.strSkip = 0 → 16 ≤ s.dev.ld.strBuf.length → b.take 4 = [0x5A, 0x50, 0x45, 0x5A] →
    leAt b 12 4 = crc32c (b.take 12) → leAt b 4 4 = s.dev.ld.strImages →
    Ends .streamTerminator s fun t =>
      t.dev.ld.strTerm = true ∧ t.dev.ld.strActive = false ∧
      t.dev.ld.strResult = (if s.dev.ld.strKept then s.dev.ld.strResult else 0x0241) ∧
      Changes [.ld, .host, .trail, .pair, .keep, .free] s t) ∧
  (∀ (s : State), (s.dev.ld.strActive = false ∨ s.dev.ld.strSkip ≠ 0 ∨ s.dev.ld.strBuf.length < 16) → Leaves .streamTerminator s s.dev) ∧
  (∀ (s : State), let b := s.dev.ld.strBuf.take 16
    s.dev.ld.strActive = true → s.dev.ld.strSkip = 0 → 16 ≤ s.dev.ld.strBuf.length → b.take 4 = [0x5A, 0x50, 0x45, 0x5A] →
    (leAt b 12 4 ≠ crc32c (b.take 12) ∨ leAt b 4 4 ≠ s.dev.ld.strImages) →
    Ends .streamTerminator s fun t =>
      t.dev.ld.strTerm = false ∧ t.dev.ld.strActive = false ∧ t.dev.ld.strResult = 0x0240 ∧
      Changes [.ld, .host, .trail, .pair, .keep, .free] s t)

/-- R156, Table 7.4: the stages of release: the outputs, then the sample and delivery, then RUNNING with a full pass.
A stop requested meanwhile takes the module on to STOPPING.
What follows the model's choices: log entry 41. -/
def Obligations.Release : Prop :=
  ∀ (s : State) (env : PinEnv), s.dev.run.st = .releasing → s.dev.run.baseWait = false →
    (s.dev.ld.stage = 0 → Leaves (.releaseStage env) s (pinsOn { s.dev with ld := { s.dev.ld with stage := 1 } })) ∧
    (s.dev.ld.stage = 1 → Leaves (.releaseStage env) s
      { s.dev with ld := { s.dev.ld with stage := 2 }, bkt := { s.dev.bkt with delivOpen := true } }) ∧
    (2 ≤ s.dev.ld.stage → s.dev.run.reqs = 0 → Ends (.releaseStage env) s fun t =>
      t.dev.run.st = .running ∧ Raises 0x017 s t ∧ t.dev.ld.stage = 3 ∧ t.dev.run.fullPass = true ∧ t.dev.run.committed = s.dev.run.committed ∧
      BanksKeep s t ∧ Changes [.tiles, .exch, .tio, .ld, .run, .trail, .bkt, .links, .keep, .sn, .trc, .clk, .pins, .free] s t) ∧
  (2 ≤ s.dev.ld.stage → s.dev.run.reqs ≠ 0 → Ends (.releaseStage env) s fun t =>
      t.dev.run.st = .stopping ∧ Raises 0x017 s t ∧ t.dev.ld.stage = 3 ∧ t.dev.run.committed = s.dev.run.committed ∧
      BanksKeep s t ∧ Changes [.tiles, .exch, .tio, .ld, .run, .trail, .bkt, .links, .keep, .sn, .trc, .clk, .pins, .free] s t)

/-- R162, R163: Mordant moves on by one tile a share, and counts a sweep after the last; a tile that holds no image is passed by; any frame of a tile,
without a correctable word and the others passing, passes, or fails and is counted, named and logged, and tears its region, at the barrier where a design cycle is
under way, unless the region waits to be reloaded (R164, R165); the
oldest pending rewrite of a die restores a correctable step word or commit entry in its
store. -/
def Obligations.MordantMoves : Prop :=
  (∀ (s : State), s.dev.run.st ≠ .boot → nocOn s.dev.clk = true →
    Ends .mordantFrameCheck s fun t =>
      t.dev.mordant.tile = (s.dev.mordant.tile + 1) % 528 ∧
      t.dev.mordant.sweeps = (if s.dev.mordant.tile = 527 then (s.dev.mordant.sweeps + 1) % 2 ^ 32 else s.dev.mordant.sweeps) ∧
      t.dev.run.committed = s.dev.run.committed ∧
      ((tileOf s.dev s.dev.mordant.tile).placed = false → Changes [.mordant] s t) ∧
      BanksKeep s t ∧ Changes [.tiles, .regions, .mordant, .run, .bkt, .keep, .sn, .trc, .free] s t) ∧
  (∀ (s : State) (l1 l2 : List FrameRec) (f : FrameRec),
    let d := s.dev
    let p := d.mordant.tile
    let T := tileOf d p
    let r := tileRegion d.fuse p
    let lines (g : FrameRec) := (List.range (g.len / 16)).map fun j => lineOf T g.kind g.cluster (g.offset / 16 + j)
    let sum (g : FrameRec) := crc32c (((lines g).flatMap fun l => bytesOf 16 l.toNat) ++ List.replicate (4096 - g.len) 0)
    let clean (l : List FrameRec) := l.map fun g => { g with clean := d.run.committed }
    let bad := (lines f).any fun l => (scrubLine f.kind l).2.2
    let under := (d.run.st = .running ∧ held d = false) ∨ (d.run.st = .stopping ∧ d.run.draining = false) ∨ d.run.st = .releasing
    let fails (code cause : Nat) : Prop := Ends .mordantFrameCheck s fun t =>
      (tileOf t.dev p).frames = clean l1 ++ f :: clean l2 ∧
      t.dev.mordant.failed = d.mordant.failed + 1 ∧ t.dev.mordant.fail = true ∧ d.keep.logNext < t.dev.keep.logNext ∧
      (d.mordant.fail = false → t.dev.mordant.failCycle = d.run.committed ∧ t.dev.mordant.cleanCycle = f.clean ∧
        t.dev.mordant.failPlace = word [(56, 8, f.kind), (32, 18, f.offset / 16), (23, 9, T.vtile), (19, 4, f.cluster % 16),
          (18, 1, if f.cluster = 16 then 1 else 0), (16, 2, cause)]) ∧
      (d.mordant.fail = true → t.dev.mordant.failPlace = d.mordant.failPlace ∧ t.dev.mordant.failCycle = d.mordant.failCycle) ∧
      ((regionOf d r).isolatePend = true → regionOf t.dev r = regionOf d r ∧ t.dev.run = d.run) ∧
      ((regionOf d r).isolatePend = false → (regionOf d r).tornPend = false → (regionOf t.dev r).tornReason = code ∧
        (under → (regionOf t.dev r).tornPend = true ∧ (regionOf t.dev r).st = .active ∧
          t.dev.run.reqs.getLsbD cREGION_TORN = true) ∧
        (¬ under → (regionOf t.dev r).st = .torn) ∧
        t.dev.run.st = if d.run.st = .running then .stopping else d.run.st)
    d.run.st ≠ .boot → nocOn d.clk = true → T.placed = true → T.loaded = true → T.frames = l1 ++ f :: l2 →
    (∀ g ∈ l1 ++ l2, ((lines g).all fun l => (scrubLine g.kind l).2 = (0, false)) = true ∧ sum g = g.pcrc) → (regionOf d r).st = .active →
    ((lines f).all fun l => (scrubLine f.kind l).2.1 = 0) = true →
    (bad = true → fails 0x0250 1) ∧ (bad = false → sum f ≠ f.pcrc → fails 0x0251 2) ∧
    (bad = false → sum f = f.pcrc → Ends .mordantFrameCheck s fun t =>
      (tileOf t.dev p).frames = clean (l1 ++ f :: l2) ∧ t.dev.mordant.failed = d.mordant.failed ∧
      t.dev.regions = d.regions ∧ Changes [.tiles, .mordant] s t)) ∧
  (∀ (s : State) (die : Fin 4) (p c a part x : Nat),
    let key := storeKey kINSTR c
    let l := tget 0 (tget [] (tileOf s.dev p).stores key) a
    s.dev.run.st ≠ .boot → nocOn s.dev.clk = true → c < 17 →
    (s.dev.mordant.rewrites.find? fun x => x.1 / 132 = die.val) = some (p, key, a, part) →
    scrubWord 80 7 (l.toNat / 2 ^ 0 % 2 ^ 88) = some (x, true) →
    Leaves (.mordantRewrite die) s
      (updTile { s.dev with mordant := { s.dev.mordant with
          rewrites := s.dev.mordant.rewrites.erase (p, key, a, part), corrected := s.dev.mordant.corrected + 1 } } p fun T =>
        T.putLine key a (l ^^^ (BitVec.ofNat 128 ((l.toNat / 2 ^ 0 % 2 ^ 88) ^^^ x) <<< 0)))) ∧
  (∀ (s : State) (die : Fin 4) (p c a j x : Nat),
    let key := storeKey kCOMMIT c
    let l := tget 0 (tget [] (tileOf s.dev p).stores key) a
    s.dev.run.st ≠ .boot → nocOn s.dev.clk = true → c < 17 → j < 4 →
    (s.dev.mordant.rewrites.find? fun x => x.1 / 132 = die.val) = some (p, key, a, j) →
    scrubWord 24 5 (l.toNat / 2 ^ (32 * j) % 2 ^ 30) = some (x, true) →
    Leaves (.mordantRewrite die) s
      (updTile { s.dev with mordant := { s.dev.mordant with
          rewrites := s.dev.mordant.rewrites.erase (p, key, a, j), corrected := s.dev.mordant.corrected + 1 } } p fun T =>
        T.putLine key a (l ^^^ (BitVec.ofNat 128 ((l.toNat / 2 ^ (32 * j) % 2 ^ 30) ^^^ x) <<< (32 * j))))) ∧
  (∀ (s : State) (die : Fin 4), (s.dev.mordant.rewrites.find? fun x => x.1 / 132 = die.val) = none →
    Leaves (.mordantRewrite die) s s.dev)

/-- R170: RUN_ENABLE. A check that refuses records its item, code and DETAIL and changes no module state; in STOPPING the run is held for
STOPPED; from LOADED a check that passes begins the release, with the progress counter at 0; in IDLE, LOADING, RELEASING, RUNNING,
REWINDING and FAULTED it is refused with WRONG_STATE.
What follows the model's choices: log entry 9. -/
def Obligations.RunEnable : Prop :=
  ∀ (s : State) (m : Master) (env : PinEnv) (d : Dev), Passes m (aRun 0x100) s d →
    (∀ item code det, (d.run.st = .loaded ∨ d.run.st = .stopped ∨ d.run.st = .stranded) →
      firstRefusal (checkItems d) = some (item, code, det) → Leaves (.runEnable m env) s (refuseRun code item det d)) ∧
    (d.run.st = .stopping → Leaves (.runEnable m env) s { d with run := { d.run with restart := true } }) ∧
    (d.run.st = .loaded → firstRefusal (checkItems d) = none → Ends (.runEnable m env) s fun t =>
      t.dev.run.st = .releasing ∧ Raises 0x017 { s with dev := d } t ∧ t.dev.run.progress = 0 ∧ t.dev.run.checkReason = 0 ∧ t.dev.ld.stage = 0 ∧
      t.dev.run.committed = d.run.committed ∧
      (rejoining d = [] → Changes [.tio, .ld, .run, .host, .sn, .trc, .clk, .th, .free] { s with dev := d } t)) ∧
    (d.run.st = .stopped → firstRefusal (checkItems d) = none → baseDue d = false → Ends (.runEnable m env) s fun t =>
      t.dev.run.st = .running ∧ Raises 0x017 { s with dev := d } t ∧ t.dev.run.progress = 0 ∧ t.dev.run.checkReason = 0 ∧ t.dev.bkt.delivOpen = true ∧
      t.dev.run.committed = d.run.committed) ∧
    ((d.run.st = .idle ∨ d.run.st = .loading ∨ d.run.st = .releasing ∨ d.run.st = .running ∨ d.run.st = .rewinding ∨ d.run.st = .faulted) →
      Leaves (.runEnable m env) s (refuseRun 4 0 0 d))

/-- R302: RUN writes COUNT, STOP_AT and the mode fields, then sets RUN_ENABLE; its REASON is that of the check.
R192: the base checkpoint of the committed cycle is complete; the release goes on.
R170: a check that refuses is answered with its code and changes no module state; from STOPPED the run begins at once, or behind its base
checkpoint (R192); in STOPPING it is held; elsewhere it is refused.
What follows the model's choices: log entry 41. -/
def Obligations.RunCommandAndBase : Prop :=
  (∀ (s : State) (x : Seat) (env : PinEnv) (c : Cmd) (rest : List Cmd), Turn s x 0x0301 c rest → c.relayed = false →
    (seatOf s.dev.host x).discard = false → s.dev.run.st = .loaded →
    let d := writeRunMode (bit (c.par 1) 0) (bit (c.par 1) 1)
      (writeStopAt (c.par 3) { taken c rest s.dev with run := { s.dev.run with count := fld (c.par 2) 47 0 } })
    firstRefusal (checkItems d) = none →
    Ends (.run x env) s fun t =>
      t.dev.run.st = .releasing ∧ t.dev.run.count = fld (c.par 2) 47 0 ∧ t.dev.run.stopAt = (c.par 3).toNat ∧
      t.dev.run.mode = bit (c.par 1) 0 ∧ t.dev.run.stopAtEn = bit (c.par 1) 1 ∧ Answered c 0 t.dev ∧
      (rejoining s.dev = [] → Changes [.tio, .ld, .run, .host, .sn, .trc, .clk, .th, .free] s t)) ∧
  (∀ (s : State) (env : PinEnv), s.dev.run.baseWait = true → s.dev.run.st = .releasing →
    Ends (.baseCheckpoint env) s fun t =>
      t.dev.run.baseWait = false ∧ t.dev.run.st = .releasing ∧ t.dev.trail.empty = false ∧
      t.dev.trail.head = (snapshot s.dev.run.committed s.dev).cycle ∧ Changes [.run, .trail, .pair] s t) ∧
  (∀ (s : State) (x : Seat) (env : PinEnv) (c : Cmd) (rest : List Cmd) (item code detail : Nat), Turn s x 0x0301 c rest → c.relayed = false →
    (seatOf s.dev.host x).discard = false → (s.dev.run.st = .loaded ∨ s.dev.run.st = .stopped) →
    let d := writeRunMode (bit (c.par 1) 0) (bit (c.par 1) 1)
      (writeStopAt (c.par 3) { taken c rest s.dev with run := { s.dev.run with count := fld (c.par 2) 47 0 } })
    firstRefusal (checkItems d) = some (item, code, detail) →
    Ends (.run x env) s fun t =>
      t.dev.run.st = s.dev.run.st ∧ t.dev.run.committed = s.dev.run.committed ∧ t.dev.run.checkReason = code ∧
      t.dev.run.checkItem = item ∧ t.dev.run.checkDetail = detail ∧ Answered c code t.dev ∧
      Changes [.run, .pair, .host, .keep, .sn, .trc, .free] s t) ∧
  (∀ (s : State) (x : Seat) (env : PinEnv) (c : Cmd) (rest : List Cmd), Turn s x 0x0301 c rest → c.relayed = false →
    (seatOf s.dev.host x).discard = false → s.dev.run.st = .stopped →
    let d := writeRunMode (bit (c.par 1) 0) (bit (c.par 1) 1)
      (writeStopAt (c.par 3) { taken c rest s.dev with run := { s.dev.run with count := fld (c.par 2) 47 0 } })
    firstRefusal (checkItems d) = none →
    Ends (.run x env) s fun t =>
      t.dev.run.st = .running ∧ t.dev.run.committed = s.dev.run.committed ∧ t.dev.run.baseWait = baseDue s.dev ∧
      t.dev.run.checkReason = 0 ∧ Answered c 0 t.dev) ∧
  (∀ (s : State) (x : Seat) (env : PinEnv) (c : Cmd) (rest : List Cmd), Turn s x 0x0301 c rest → c.relayed = false →
    (seatOf s.dev.host x).discard = false → (s.dev.run.st = .idle ∨ s.dev.run.st = .running ∨ s.dev.run.st = .releasing ∨ s.dev.run.st = .faulted) →
    Ends (.run x env) s fun t =>
      t.dev.run.st = s.dev.run.st ∧ t.dev.run.checkReason = 4 ∧ Answered c 4 t.dev ∧
      Changes [.run, .pair, .host, .keep, .sn, .trc, .free] s t) ∧
  (∀ (s : State) (x : Seat) (env : PinEnv) (c : Cmd) (rest : List Cmd), Turn s x 0x0301 c rest → c.relayed = false →
    (seatOf s.dev.host x).discard = false → s.dev.run.st = .stopping →
    Ends (.run x env) s fun t =>
      t.dev.run.st = .stopping ∧ t.dev.run.restart = true ∧ Answered c 0 t.dev ∧ Changes [.run, .host, .sn, .trc] s t) ∧
  (∀ (s : State) (env : PinEnv), s.dev.run.baseWait = false → Leaves (.baseCheckpoint env) s s.dev) ∧
  (∀ (s : State) (env : PinEnv), s.dev.run.baseWait = true → s.dev.run.st = .running →
    Ends (.baseCheckpoint env) s fun t =>
      t.dev.run.baseWait = false ∧ t.dev.run.st = .running ∧ t.dev.run.committed = s.dev.run.committed ∧
      t.dev.trail.empty = false ∧ t.dev.trail.head = (snapshot s.dev.run.committed s.dev).cycle ∧
      t.dev.run.paceCapUse = s.dev.run.paceCap ∧ t.dev.run.capTicks = 0)

/-- R174, R176, R178: a stop request of a running module outside a hold takes it to STOPPING and joins the causes that the coming barrier
collects: STOP, the STOP command, HALT_N low for 20 ns or more. HALT_N low for less than 5 ns is nothing, and high again it no longer
keeps a run from starting.
What follows the model's choices: log entry 78. -/
def Obligations.StopRequests : Prop :=
  (∀ (s : State) (m : Master) (d : Dev), Passes m (aRun 0x100) s d → d.run.st = .running → held d = false → d.run.restart = false →
    Leaves (.runCtrlStop m) s (enterState .stopping
      { d with run := { d.run with stopBit := true, reqs := setBit d.run.reqs cHOST_STOP true } })) ∧
  (∀ (s : State) (x : Seat) (c : Cmd) (rest : List Cmd), Turn s x 0x0302 c rest →
    s.dev.run.st = .running → held s.dev = false → s.dev.run.restart = false →
    Leaves (.stop x) s (respond c 0 [] (enterState .stopping
      { taken c rest s.dev with run := { s.dev.run with stopBit := true, reqs := setBit s.dev.run.reqs cHOST_STOP true } }))) ∧
  (∀ (s : State) (ns : Nat), 20 ≤ ns → s.dev.run.st = .running → held s.dev = false → s.dev.run.restart = false →
    Leaves (.haltN true ns) s (enterState .stopping
      { s.dev with run := { s.dev.run with haltLow := true, reqs := setBit s.dev.run.reqs cHALT_N true } })) ∧
  (∀ (s : State) (ns : Nat), ns < 5 → Leaves (.haltN true ns) s s.dev) ∧
  (∀ (s : State) (ns : Nat), Leaves (.haltN false ns) s { s.dev with run := { s.dev.run with haltLow := false } })

/-- R180: a forced stop of a running module outside a hold abandons the design cycle: MID_CYCLE is set, the cause FORCED is among the
collected ones, the committed cycle stays; a FORCE_STOP command completes once the module is STOPPED.
What follows the model's choices: log entries 11, 37. -/
def Obligations.ForcedStop : Prop :=
  (∀ (s : State) (m : Master) (d : Dev), Passes m (aRun 0x100) s d → d.run.st = .running → held d = false → d.run.draining = false →
    Ends (.runCtrlForceStop m) s fun t =>
      t.dev.run.st = .stopping ∧ Raises 0x017 { s with dev := d } t ∧ t.dev.run.draining = true ∧ t.dev.run.midCycle = true ∧ t.dev.run.set.getLsbD 1 = true ∧
      (d.run.reqs.getLsbD 0 = false → t.dev.run.cause = 1 ∧ t.dev.run.reason = 0x0324) ∧
      t.dev.run.committed = s.dev.run.committed ∧ BanksKeep s t ∧
      Changes [.tiles, .exch, .tio, .run, .bkt, .links, .host, .keep, .sn, .trc, .free] { s with dev := d } t) ∧
  (∀ (s : State) (x : Seat) (c : Cmd) (rest : List Cmd), Turn s x 0x0303 c rest → s.dev.run.st = .running → held s.dev = false →
    s.dev.run.draining = false →
    Ends (.forceStop x) s fun t =>
      t.dev.run.st = .stopping ∧ Raises 0x017 s t ∧ t.dev.run.midCycle = true ∧ t.dev.run.set.getLsbD 1 = true ∧ t.dev.host.held = [c] ∧
      t.dev.run.committed = s.dev.run.committed ∧ BanksKeep s t ∧
      Changes [.tiles, .exch, .tio, .run, .bkt, .links, .host, .keep, .sn, .trc, .free] s t) ∧
  (∀ (s : State) (x : Seat) (c : Cmd) (rest : List Cmd), Turn s x 0x0303 c rest → s.dev.run.st = .loaded →
    Leaves (.forceStop x) s (respond c 0 [w64 s.dev.run.committed] (taken c rest s.dev)))

/-- R175: the drain is complete: the module is STOPPED. R173: a STOP_AT written while no run is on is only taken in; during a run one
that names a design cycle already begun stops the run at the next barrier with LATE_STOP, but the cycle that still awaits its base
checkpoint has not begun.
What follows the model's choices: log entry 36. -/
def Obligations.StopCompletes : Prop :=
  (∀ (s : State) (env : PinEnv), s.dev.run.st = .stopping → s.dev.run.draining = true → drained s.dev = true →
    s.dev.run.restart = false →
    Ends (.stopDrainComplete env) s fun t =>
      t.dev.run.st = .stopped ∧ Raises 0x017 s t ∧ t.dev.run.draining = false ∧ t.dev.run.stopBit = false ∧
      t.dev.run.committed = s.dev.run.committed ∧ t.dev.run.cause = s.dev.run.cause) ∧
  (∀ (s : State) (m : Master) (v : W64) (d : Dev), Passes m (aRun 0x110) s d → d.run.st ≠ .running → d.run.st ≠ .stopping →
    d.run.st ≠ .releasing → Leaves (.stopAtWrite m v) s { d with run := { d.run with stopAt := v.toNat } }) ∧
  (∀ (s : State) (m : Master) (v : W64) (d : Dev), Passes m (aRun 0x110) s d → d.run.st = .running → held d = false →
    d.run.baseWait = false → d.run.stopAtEn = true → v.toNat ≤ d.run.committed + 1 →
    Leaves (.stopAtWrite m v) s (enterState .stopping
      { d with run := { d.run with stopAt := v.toNat, lateStop := true, reqs := setBit d.run.reqs cSTOP_AT true } })) ∧
  (∀ (s : State) (m : Master) (v : W64) (d : Dev), Passes m (aRun 0x110) s d → d.run.st = .running → d.run.baseWait = true →
    d.run.committed < v.toNat → Leaves (.stopAtWrite m v) s { d with run := { d.run with stopAt := v.toNat } })

/-- R181 to R184: an internal check takes a running module to FAULTED with its code, and an idle one nowhere; the watchdog reports the
waiting clusters and, unless it is to force a stop, changes nothing else.
R186 to R188: the cap holds a design cycle no longer once its time has come; a window without an aim shows the commits of the last
millisecond and NO_AIM, one that falls short of it the first limit that held during it, WAITS where a cluster is held as it ends; SET_PACE writes both aims.
R183: where the action is a forced stop, the watchdog forces one; without a limit, in a hold or outside a run it does nothing.
What follows the model's choices: log entries 8, 48, 92. -/
def Obligations.WatchdogAndPace : Prop :=
  (∀ (s : State), s.dev.run.st = .running →
    Ends .internalCheckFailed s fun t =>
      t.dev.run.st = .faulted ∧ Raises 0x017 s t ∧ t.dev.run.fault = 6 ∧ t.dev.run.holdTrail = false ∧ t.dev.run.holdCap = false ∧
      t.dev.run.committed = s.dev.run.committed) ∧
  (∀ (s : State), s.dev.run.st = .idle → Leaves .internalCheckFailed s s.dev) ∧
  (∀ (s : State), s.dev.run.st = .running → held s.dev = false → s.dev.run.wdogMs ≠ 0 → s.dev.run.stall = false →
    s.dev.run.wdogAction = false →
    Leaves .watchdogExpiry s (stallReport s.dev) ∧ (stallReport s.dev).run.stall = true ∧
      (stallReport s.dev).run.wdogCycle = s.dev.run.committed) ∧
  (∀ (s : State), s.dev.run.st = .running → s.dev.run.holdCap = true → s.dev.run.holdTrail = false → paceDue s.dev ≤ s.dev.run.capTicks →
    Ends .paceCapRelease s fun t =>
      t.dev.run.holdCap = false ∧ t.dev.run.holdTrail = false ∧ t.dev.run.st = .running ∧
      t.dev.run.committed = s.dev.run.committed ∧ BanksKeep s t ∧
      Changes [.tiles, .exch, .run, .links, .keep, .sn, .trc, .clk, .free] s t) ∧
  (∀ (s : State), s.dev.run.st = .running → s.dev.run.paceTargetUse = 0 → s.dev.run.paceCapUse = 0 →
    Leaves .paceWindow s (noteNow { s.dev with run := { s.dev.run with
      paceActual := s.dev.run.paceCommits * 1000, paceLimit := 1, paceCommits := 0, paceThermal := false, paceWaits := false
      pacePower := false, paceWear := false, paceVolt := false } })) ∧
  (∀ (s : State) (x : Seat) (c : Cmd) (rest : List Cmd), Turn s x 0x0901 c rest →
    Leaves (.setPace x) s (respond c 0 [] { taken c rest s.dev with
      run := { s.dev.run with paceTarget := fld (c.par 1) 31 0, paceCap := fld (c.par 2) 31 0 } })) ∧
  (∀ (s : State), s.dev.run.st = .running → 0 < paceAim s.dev.run.paceTargetUse s.dev.run.paceCapUse →
    100 * (s.dev.run.paceCommits * 1000) < 98 * paceAim s.dev.run.paceTargetUse s.dev.run.paceCapUse →
    Ends .paceWindow s fun t =>
      t.dev.run.paceActual = s.dev.run.paceCommits * 1000 ∧
      (s.dev.run.paceThermal = true → t.dev.run.paceLimit = 5) ∧
      (s.dev.run.paceThermal = false → s.dev.run.pacePower = true → t.dev.run.paceLimit = 3) ∧
      (s.dev.run.paceThermal = false → s.dev.run.pacePower = false → s.dev.th.throttling = false → atCeiling s.dev.th = false →
        s.dev.run.paceWear = false → s.dev.run.paceVolt = false →
        (s.dev.run.paceWaits = true ∨ (∃ x ∈ activeClusters s.dev, 1 ≤ waitCause s.dev x.1 x.2 ∧ waitCause s.dev x.1 x.2 ≤ 5) →
          t.dev.run.paceLimit = 7) ∧
        (s.dev.run.paceWaits = false → waitsNow s.dev = false → t.dev.run.paceLimit = 0)) ∧ Changes [.run] s t) ∧
  (∀ (s : State), s.dev.run.st = .running → held s.dev = false → s.dev.run.wdogMs ≠ 0 → s.dev.run.draining = false →
    s.dev.run.wdogAction = true →
    Ends .watchdogExpiry s fun t =>
      t.dev.run.st = .stopping ∧ Raises 0x017 s t ∧ t.dev.run.stall = true ∧ t.dev.run.forcedBy = 2 ∧ t.dev.run.midCycle = true ∧
      t.dev.run.committed = s.dev.run.committed ∧
      (s.dev.run.stall = false → t.dev.run.wdogCycle = s.dev.run.committed) ∧
      (s.dev.run.reqs.getLsbD 0 = false → t.dev.run.cause = 1 ∧ t.dev.run.reason = 0x0323) ∧
      BanksKeep s t ∧ Changes [.tiles, .exch, .tio, .run, .bkt, .links, .host, .keep, .sn, .trc, .free] s t) ∧
  (∀ (s : State), ((s.dev.run.st ≠ .running ∨ held s.dev = true) ∧ s.dev.run.st ≠ .stopping ∨ s.dev.run.wdogMs = 0 ∨
      s.dev.run.stall = true ∧ s.dev.run.wdogAction = false) →
    Leaves .watchdogExpiry s s.dev)

/-- R194 to R197: a complete checkpoint joins the trail's; with nothing that waits for it, nothing else changes. A write of TRAIL_CTRL outside a
trail hold by the manager or the run seat sets PIN and INTERVAL; one of another seat changes nothing. R181: an uncorrectable error on a
read by the trail engine takes the module to FAULTED.
R197: the checkpoint that a rejoin asked for becomes the trailhead; with PIN the trailhead stays.
What follows the model's choices: log entry 96. -/
def Obligations.TrailRegisters : Prop :=
  (∀ (s : State) (k : Ckpt), s.dev.trail.composing = [k] → s.dev.pair.mirror = false → s.dev.trail.reload = [] →
    s.dev.trail.short = 0 → s.dev.trail.rewinding = false →
    Leaves .checkpointComplete s { s.dev with trail := { s.dev.trail with
      composing := [], ckpts := s.dev.trail.ckpts ++ [k], ckptLast := k.cycle, gen := s.dev.trail.gen + 1, wrote := true } }) ∧
  (∀ (s : State) (x : Seat) (v : W64) (d : Dev), Passes (.seat x) (aTrail 0) s d → (x = .manager ∨ x = .run) →
    d.run.holdTrail = false →
    Leaves (.trailPinWrite (.seat x) v) s { d with trail := { d.trail with pin := bit v 8, interval := fld v 4 0 } }) ∧
  (∀ (s : State) (x : Seat) (v : W64), Judged s → x ≠ .manager → x ≠ .run →
    Leaves (.trailPinWrite (.seat x) v) s (seatError (.seat x) false (denySeat x (takeUp x s.dev)))) ∧
  (∀ (s : State), s.dev.run.st = .running → engineReads s.dev = true →
    Ends (.rewindComplete true) s fun t =>
      t.dev.run.st = .faulted ∧ t.dev.run.fault = 0x0325 ∧ t.dev.run.committed = s.dev.run.committed) ∧
  (∀ (s : State) (k : Ckpt) (rest : List Ckpt), s.dev.trail.composing = k :: rest → s.dev.trail.rewinding = false →
    Ends .checkpointComplete s fun t =>
      t.dev.trail.composing = rest ∧ t.dev.trail.ckptLast = k.cycle ∧
      (k.cycle ∈ s.dev.trail.reload → (∀ x ∈ rest, x.cycle ≠ k.cycle) → t.dev.trail.head = k.cycle ∧ t.dev.trail.headCause = 2 ∧
        t.dev.trail.reload = s.dev.trail.reload.filter fun m => decide (k.cycle < m)) ∧
      (k.cycle ∉ s.dev.trail.reload → t.dev.trail.reload = s.dev.trail.reload) ∧
      (k.cycle ∉ s.dev.trail.reload → s.dev.trail.pinUse = true → t.dev.trail.ckpts = s.dev.trail.ckpts ++ [k] ∧
        t.dev.trail.head = s.dev.trail.head) ∧
      t.dev.trail.pin = s.dev.trail.pin ∧ Changes [.trail, .bkt, .pair] s t) ∧
  (∀ (s : State), s.dev.trail.composing = [] → Leaves .checkpointComplete s s.dev)

/-- R199, Table 9.2: a REWIND that passes its checks takes the module to REWINDING with its target; one that fails a check answers its
code and changes neither the committed cycle nor the module state.
R200 to R204: a rewind to a cycle at or after some complete checkpoint ends in STOPPED at that cycle, with the next design cycle a
full pass; while Basket may not decide, it goes on (R237, R323). R205: an uncorrectable HBM error on a trail read ends it in FAULTED.
What follows the model's choices: log entries 19, 90. -/
def Obligations.Rewind : Prop :=
  (∀ (s : State) (x : Seat) (c : Cmd) (rest : List Cmd), Turn s x 0x0401 c rest → s.dev.trail.reload = [] →
    rewindCheck (c.par 1).toNat s.dev = 0 →
    Ends (.rewind x) s fun t =>
      t.dev.run.st = .rewinding ∧ t.dev.trail.target = (c.par 1).toNat ∧ t.dev.trail.rewinding = true ∧
      t.dev.trail.banksTaken = false ∧ t.dev.trail.rewindBytes = 0 ∧ t.dev.host.longKind = 4 ∧ t.dev.host.longCmd = some c ∧
      t.dev.run.committed = s.dev.run.committed ∧ Changes [.run, .trail, .host, .sn, .trc] s t) ∧
  (∀ (s : State) (x : Seat) (c : Cmd) (rest : List Cmd), Turn s x 0x0401 c rest → c.relayed = false →
    (seatOf s.dev.host x).discard = false → s.dev.trail.reload = [] → rewindCheck (c.par 1).toNat s.dev ≠ 0 →
    Ends (.rewind x) s fun t =>
      t.dev.trail = { s.dev.trail with reason := rewindCheck (c.par 1).toNat s.dev } ∧ Answered c (rewindCheck (c.par 1).toNat s.dev) t.dev ∧
      t.dev.host.longKind = restKind s.dev ∧ Changes [.trail, .host, .keep, .free] s t) ∧
  (∀ (s : State), s.dev.run.st = .rewinding → (s.dev.trail.ckpts.any fun k => decide (k.cycle ≤ s.dev.trail.target)) = true →
    bktBusy s.dev = false → traceOn 0x20 s.dev = false → (∀ p ∈ s.dev.trc.waiting, p.src ≠ 0x20) →
    (∀ x ∈ s.dev.bkt.done, x.reported = true) →
    Ends (.rewindComplete false) s fun t =>
      t.dev.run.st = .stopped ∧ t.dev.run.committed = s.dev.trail.target ∧ t.dev.run.midCycle = false ∧ t.dev.run.fullNext = true ∧
      t.dev.trail.lastRewind = s.dev.trail.target ∧ t.dev.trail.rewinding = false ∧ t.dev.trail.banksTaken = false ∧
      t.dev.host.longKind = restKind s.dev ∧ (∀ k ∈ t.dev.trail.ckpts, k.cycle ≤ s.dev.trail.target)) ∧
  (∀ (s : State), s.dev.run.st = .rewinding →
    Ends (.rewindComplete true) s fun t =>
      t.dev.run.st = .faulted ∧ t.dev.run.fault = 0x0325 ∧ t.dev.trail.rewinding = false ∧ t.dev.host.longKind = restKind s.dev ∧
      t.dev.run.committed = s.dev.run.committed) ∧
  (∀ (s : State), s.dev.run.st = .rewinding → bktBlocked s.dev = true →
    Ends (.rewindComplete false) s fun t =>
      t.dev.run = s.dev.run ∧ t.dev.trail.banksTaken = true ∧ t.dev.trail.rewinding = s.dev.trail.rewinding ∧
      t.dev.trail.ckpts = s.dev.trail.ckpts ∧ t.dev.host = s.dev.host ∧ t.dev.bkt.jobs = s.dev.bkt.jobs)

/-- R215: ARM, by register or command, in LOADED or STOPPED with its checks passed starts a session at the committed cycle, in RING of hamper
0. R223: DISARM ends the session under way; without one it is refused.
R215: in RUNNING the session waits for its arm cycle; a refused ARM records its code alone. R223: DISARM closes a hamper in POST.
What follows the model's choices: log entries 17, 20. -/
def Obligations.CaptureSessions : Prop :=
  (∀ (s : State) (x : Seat) (d : Dev), Passes (.seat x) (aCapture 0) s d → x ≠ .board → (d.run.st = .loaded ∨ d.run.st = .stopped) →
    armCheck d = 0 →
    Ends (.capCtrlArm (.seat x)) s fun t =>
      t.dev.cap.armed = true ∧ t.dev.cap.arming = false ∧ t.dev.cap.phase = .ring ∧ t.dev.cap.armCycle = d.run.committed ∧
      t.dev.cap.hamper = 0 ∧ t.dev.cap.closed = 0 ∧ t.dev.cap.reason = 0 ∧ t.dev.cap.seqState = 0 ∧ Changes [.mem, .cap, .host, .sn, .trc] { s with dev := d } t) ∧
  (∀ (s : State) (x : Seat) (c : Cmd) (rest : List Cmd), Turn s x 0x0501 c rest → c.relayed = false →
    (seatOf s.dev.host x).discard = false → (s.dev.run.st = .loaded ∨ s.dev.run.st = .stopped) → armCheck s.dev = 0 →
    Ends (.arm x) s fun t =>
      t.dev.cap.armed = true ∧ t.dev.cap.phase = .ring ∧ t.dev.cap.armCycle = s.dev.run.committed ∧ Answered c 0 t.dev ∧
      Changes [.mem, .cap, .host, .sn, .trc] s t) ∧
  (∀ (s : State) (x : Seat) (d : Dev), Passes (.seat x) (aCapture 0) s d → x ≠ .board → d.cap.armed = true → d.cap.phase = .ring →
    d.cap.heldWrites = [] →
    Leaves (.capCtrlDisarm (.seat x)) s
      { d with cap := { d.cap with reason := 0, armed := false, arming := false, ended := true, phase := .none, dies := []
                                   setupDue := false, seqOn := false } }) ∧
  (∀ (s : State) (x : Seat) (c : Cmd) (rest : List Cmd), Turn s x 0x0502 c rest → c.relayed = false →
    (seatOf s.dev.host x).discard = false → s.dev.cap.armed = true →
    Ends (.disarm x) s fun t =>
      t.dev.cap.armed = false ∧ t.dev.cap.ended = true ∧ t.dev.cap.seqOn = false ∧ Answered c 0 t.dev ∧
      Changes [.mem, .cap, .host, .sn, .trc, .free] s t) ∧
  (∀ (s : State) (x : Seat) (c : Cmd) (rest : List Cmd), Turn s x 0x0502 c rest → s.dev.cap.armed = false →
    Ends (.disarm x) s fun t => t.dev.cap.reason = 0x0506 ∧ t.dev.cap.armed = false ∧ Changes [.cap, .host, .pair, .keep, .free] s t) ∧
  (∀ (s : State) (x : Seat) (d : Dev), Passes (.seat x) (aCapture 0) s d → x ≠ .board → d.run.st = .running → armCheck d = 0 →
    Ends (.capCtrlArm (.seat x)) s fun t =>
      t.dev.cap.armed = true ∧ t.dev.cap.arming = true ∧ t.dev.cap.phase = .none ∧ t.dev.cap.hamper = 0 ∧ t.dev.cap.closed = 0 ∧
      t.dev.cap.reason = 0 ∧ t.dev.cap.seqState = 0 ∧ (d.sn.draining = false → t.dev.cap.heldWrites = []) ∧
      Changes [.mem, .cap, .sn, .trc] { s with dev := d } t) ∧
  (∀ (s : State) (x : Seat) (d : Dev) (n : Nat), Passes (.seat x) (aCapture 0) s d → x ≠ .board →
    ((d.run.st = .loaded ∨ d.run.st = .stopped ∨ d.run.st = .running ∨ d.run.st = .stranded) ∧ armCheck d = n ∧ n ≠ 0 ∨
      (d.run.st = .idle ∨ d.run.st = .loading ∨ d.run.st = .releasing ∨ d.run.st = .stopping ∨ d.run.st = .faulted) ∧ n = 4) →
    Ends (.capCtrlArm (.seat x)) s fun t =>
      t.dev.cap = { d.cap with reason := n } ∧ t.dev.keep.logNext = d.keep.logNext + 1 ∧
      Changes [.cap, .keep, .free] { s with dev := d } t) ∧
  (∀ (s : State) (x : Seat) (d : Dev), Passes (.seat x) (aCapture 0) s d → x ≠ .board → d.cap.armed = true → d.cap.phase = .post →
    Ends (.capCtrlDisarm (.seat x)) s fun t =>
      t.dev.cap.armed = false ∧ t.dev.cap.ended = true ∧ t.dev.cap.closed = d.cap.closed + 1 ∧ t.dev.cap.phase = .none ∧
      t.dev.cap.seqOn = false ∧ t.dev.cap.reason = 0) ∧
  (∀ (s : State) (x : Seat) (d : Dev), Passes (.seat x) (aCapture 0) s d → x ≠ .board → d.cap.armed = false →
    Ends (.capCtrlDisarm (.seat x)) s fun t =>
      t.dev.cap = { d.cap with reason := 0x0506 } ∧ Changes [.cap, .keep, .free] { s with dev := d } t)

/-- R209: a capture configuration register takes a write while no session is armed and ignores it, with CFG_REFUSED, while one is.
R220: once the next slot is set up, the records held meanwhile are written; nothing happens while the hub's clock stands (R348).
What follows the model's choices: log entry 13. -/
def Obligations.CaptureRegisters : Prop :=
  (∀ (s : State) (x : Seat) (off : Nat) (v : W64) (d : Dev), Passes (.seat x) (aCapture off) s d → x ≠ .board →
    isCapConfig off = true → d.cap.armed = false →
    Leaves (.captureConfigWrite (.seat x) off v) s { d with cap := capConfig off v d.cap }) ∧
  (∀ (s : State) (x : Seat) (off : Nat) (v : W64) (d : Dev), Passes (.seat x) (aCapture off) s d → x ≠ .board →
    isCapConfig off = true → d.cap.armed = true →
    Leaves (.captureConfigWrite (.seat x) off v) s (logOpen { d with cap := { d.cap with cfgRefused := true } })) ∧
  (∀ (s : State) (off : Nat) (v : W64), Judged s → isCapConfig off = true → off < 0x1_0000 →
    Leaves (.captureConfigWrite (.seat .board) off v) s (seatError (.seat .board) false (denySeat .board (takeUp .board s.dev)))) ∧
  (∀ (s : State) (a : Nat) (w : BitVec 32) (n : Nat) (d : Dev), nocOn s.dev.clk = true → s.dev.cap.heldWrites = [(a, w)] →
    blockedTo s.dev (hbmDie a * 256) = false → travel (capPacket a w s.dev) true (4 + hbmDie a) s.dev = (n, d) →
    let t := if n = 0 then putHbm a 4 w.toNat d else countDrop n d
    Leaves .hamperRearmSetup s { t with cap := { t.cap with setupDue := false, heldWrites := [] } }) ∧
  (∀ (s : State) (a : Nat) (w : BitVec 32) (l : List (Nat × BitVec 32)), nocOn s.dev.clk = true → s.dev.cap.heldWrites = (a, w) :: l →
    blockedTo s.dev (hbmDie a * 256) = true →
    Leaves .hamperRearmSetup s { s.dev with cap := { s.dev.cap with setupDue := false } }) ∧
  (∀ (s : State), nocOn s.dev.clk = true → s.dev.sn.draining = false →
    (∀ x ∈ s.dev.cap.heldWrites, travel (capPacket x.1 x.2 s.dev) true (4 + hbmDie x.1) s.dev = (0, s.dev)) →
    Leaves .hamperRearmSetup s { s.dev with
      mem := s.dev.cap.heldWrites.foldl (fun M w => hbmPut M w.1 4 w.2.toNat) s.dev.mem
      cap := { s.dev.cap with setupDue := false, heldWrites := [] } }) ∧
  (∀ (s : State), nocOn s.dev.clk = false → Leaves .hamperRearmSetup s s.dev)

/-- R230: one submitted slot that passes its checks joins Basket; one that fails a check is refused with the check's code. A SUBMIT command
answers how many slots were accepted.
R230: every slot of a write is accepted or refused, or still to be judged; in a state that takes no submission all are refused.
R237: while Basket may not decide, a submission waits, and the response of a SUBMIT with it.
What follows the model's choices: log entries 95, 100. -/
def Obligations.Submission : Prop :=
  (∀ (s : State) (x : Seat) (v : W64) (d : Dev), Passes (.seat x) (aBasket 8) s d → (x = .manager ∨ x = .run) → fld v 47 32 = 0 →
    bktBusy d = false → submitState d = true → (readSlot (fld v 23 0) d).1 = 0 → slotCheck d (fld v 23 0) = 0 →
    Ends (.basketSubmit (.seat x) v) s fun t =>
      t.dev.bkt.submitted = d.bkt.submitted + 1 ∧ (t.dev.bkt.descs.any fun y => y.slot = fld v 23 0) = true ∧
      t.dev.bkt.refusedCount = d.bkt.refusedCount ∧ t.dev.bkt.jobs = [] ∧
      SlotsOnly (fld v 23 0 :: d.bkt.descs.map (·.slot)) d t.dev ∧ Changes [.mem, .bkt, .host, .sn, .trc] { s with dev := d } t) ∧
  (∀ (s : State) (x : Seat) (v : W64) (d : Dev), Passes (.seat x) (aBasket 8) s d → (x = .manager ∨ x = .run) → fld v 47 32 = 0 →
    bktBusy d = false → submitState d = true → (readSlot (fld v 23 0) d).1 = 0 → slotCheck d (fld v 23 0) ≠ 0 →
    Ends (.basketSubmit (.seat x) v) s fun t =>
      t.dev.bkt.refusedCount = d.bkt.refusedCount + 1 ∧ t.dev.bkt.refused = true ∧ t.dev.bkt.reason = slotCheck d (fld v 23 0) ∧
      t.dev.bkt.badIndex = fld v 23 0 ∧ t.dev.bkt.descs = d.bkt.descs ∧ Changes [.bkt, .host, .keep, .sn, .trc, .free] { s with dev := d } t) ∧
  (∀ (s : State) (x : Seat) (c : Cmd) (rest : List Cmd), Turn s x 0x0601 c rest → c.relayed = false →
    (seatOf s.dev.host x).discard = false → fld (c.par 1) 47 32 = 0 → submitState s.dev = true →
    bktBusy s.dev = false → (readSlot (fld (c.par 1) 23 0) s.dev).1 = 0 → slotCheck s.dev (fld (c.par 1) 23 0) = 0 →
    Ends (.submit x) s fun t =>
      t.dev.bkt.submitted = s.dev.bkt.submitted + 1 ∧ Answered c 0 t.dev ∧
      (seatOf t.dev.host x).rspBuf = mwriteBytes (seatOf s.dev.host x).rspBuf 0 (responseBytes c 0 [1]) ∧
      SlotsOnly (fld (c.par 1) 23 0 :: s.dev.bkt.descs.map (·.slot)) s.dev t.dev ∧ Changes [.mem, .bkt, .host, .sn, .trc] s t) ∧
  (∀ (s : State) (x : Seat) (v : W64) (d : Dev), Passes (.seat x) (aBasket 8) s d → (x = .manager ∨ x = .run) →
    Ends (.basketSubmit (.seat x) v) s fun t =>
      (d.bkt.jobs = [] → t.dev.bkt.submitted + t.dev.bkt.refusedCount + w64 (slotsLeft t.dev)
        = d.bkt.submitted + d.bkt.refusedCount + w64 (fld v 47 32 + 1)) ∧ (BasketFree d → t.dev.bkt.jobs = []) ∧
      SlotsOnly ((List.range (fld v 47 32 + 1)).map (fld v 23 0 + ·) ++ d.bkt.descs.map (·.slot)) d t.dev ∧ Changes [.mem, .bkt, .host, .keep, .sn, .trc, .free] { s with dev := d } t) ∧
  (∀ (s : State) (x : Seat) (v : W64) (d : Dev), Passes (.seat x) (aBasket 8) s d → (x = .manager ∨ x = .run) →
    BasketFree d → submitState d = false →
    Ends (.basketSubmit (.seat x) v) s fun t =>
      t.dev.bkt.refusedCount = d.bkt.refusedCount + w64 (fld v 47 32 + 1) ∧ t.dev.bkt.refused = true ∧ t.dev.bkt.reason = 4 ∧
      t.dev.bkt.badIndex = (fld v 23 0 + fld v 47 32) % 2 ^ 24 ∧ t.dev.bkt.descs = d.bkt.descs ∧
      Changes [.bkt, .host, .keep, .sn, .trc, .free] { s with dev := d } t) ∧
  (∀ (s : State) (x : Seat) (c : Cmd) (rest : List Cmd), Turn s x 0x0601 c rest → c.relayed = false →
    (seatOf s.dev.host x).discard = false → fld (c.par 1) 47 32 = 0 → submitState s.dev = true →
    bktBusy s.dev = false → (readSlot (fld (c.par 1) 23 0) s.dev).1 = 0 → slotCheck s.dev (fld (c.par 1) 23 0) ≠ 0 →
    Ends (.submit x) s fun t =>
      Answered c (slotCheck s.dev (fld (c.par 1) 23 0)) t.dev ∧ t.dev.bkt.descs = s.dev.bkt.descs ∧
      (seatOf t.dev.host x).rspBuf = mwriteBytes (seatOf s.dev.host x).rspBuf 0
        (responseBytes c (slotCheck s.dev (fld (c.par 1) 23 0)) [0]) ∧
      Changes [.bkt, .pair, .host, .keep, .sn, .trc, .free] s t) ∧
  (∀ (s : State) (x : Seat) (v : W64) (d : Dev), Passes (.seat x) (aBasket 8) s d → (x = .manager ∨ x = .run) → bktBlocked d = true →
    Leaves (.basketSubmit (.seat x) v) s { d with bkt := { d.bkt with
      jobs := d.bkt.jobs ++ [.submit false (fld v 23 0) (fld v 47 32 + 1) 0 0]
      traceWait := d.bkt.traceWait + w64 (b2n (d.bkt.jobs.isEmpty && bktFull d)) } }) ∧
  (∀ (s : State) (x : Seat) (c : Cmd) (rest : List Cmd), Turn s x 0x0601 c rest → bktBlocked s.dev = true →
    Ends (.submit x) s fun t =>
      t.dev.host.held = [c] ∧ t.dev.bkt.jobs = s.dev.bkt.jobs ++ [.submit true (fld (c.par 1) 23 0) (fld (c.par 1) 47 32 + 1) 0 0] ∧
      (∀ y, (seatOf t.dev.host y).rspBuf = (seatOf s.dev.host y).rspBuf ∧ (seatOf t.dev.host y).done = (seatOf s.dev.host y).done) ∧
      Changes [.bkt, .host] s t)

/-- R233: a delivery to a port whose context has room, outside replay, while the port's window has room, puts the item of the first ready flow of
the lowest non-empty list into the context, and counts it; with the port's window full it puts none. R241: in replay it puts the item that
the log holds, once the completions of earlier commits have taken effect. R237: while the funnel is full, none is delivered.
What follows the model's choices: log entries 23, 95. -/
def Obligations.Delivery : Prop :=
  (∀ (s : State) (port : Fin 4096) (p q : Nat), portCtx? s.dev 2 port = some (p, q) → s.dev.bkt.delivOpen = true →
    tileActive s.dev p = true → (ctxOf (tileOf s.dev p) q).items.length < (ctxCfg (tileOf s.dev p) q).depth →
    s.dev.bkt.jobs = [] → inReplay s.dev = false →
    (∀ x, outstanding s.dev port ≤ windowM1 s.dev port → nextReady? s.dev port = some x → bktBlocked s.dev = false →
      Ends (.basketDelivery port) s fun t =>
        (ctxOf (tileOf t.dev p) q).items = (ctxOf (tileOf s.dev p) q).items ++ [x.item] ∧
        (ctxOf (tileOf t.dev p) q).flows = (ctxOf (tileOf s.dev p) q).flows ++ [x.flow] ∧
        t.dev.bkt.deliveredCount = s.dev.bkt.deliveredCount + 1 ∧ BanksKeep s t ∧
        SlotsOnly (s.dev.bkt.descs.map (·.slot)) s.dev t.dev ∧ Changes [.tiles, .mem, .trail, .bkt, .sn, .trc] s t) ∧
    (windowM1 s.dev port < outstanding s.dev port → Leaves (.basketDelivery port) s s.dev) ∧
    (outstanding s.dev port ≤ windowM1 s.dev port → nextReady? s.dev port = none → Leaves (.basketDelivery port) s s.dev)) ∧
  (∀ (s : State) (port : Fin 4096) (p q flow : Nat) (item : W64), portCtx? s.dev 2 port = some (p, q) → s.dev.bkt.delivOpen = true →
    tileActive s.dev p = true → (ctxOf (tileOf s.dev p) q).items.length < (ctxCfg (tileOf s.dev p) q).depth →
    inReplay s.dev = true → logged? s.dev p q = some (flow, item) → completionsDue s.dev = false → s.dev.bkt.jobs = [] →
    (bktBlocked s.dev = false → Ends (.basketDelivery port) s fun t =>
      (ctxOf (tileOf t.dev p) q).items = (ctxOf (tileOf s.dev p) q).items ++ [item] ∧
      (ctxOf (tileOf t.dev p) q).flows = (ctxOf (tileOf s.dev p) q).flows ++ [flow] ∧
      t.dev.bkt.deliveredCount = s.dev.bkt.deliveredCount + 1 ∧ BanksKeep s t ∧
        SlotsOnly (s.dev.bkt.descs.map (·.slot)) s.dev t.dev ∧ Changes [.tiles, .mem, .trail, .bkt, .sn, .trc, .free] s t) ∧
    (bktBlocked s.dev = true →
      Leaves (.basketDelivery port) s { s.dev with bkt := { s.dev.bkt with traceWait := s.dev.bkt.traceWait + w64 (b2n (bktFull s.dev)) } })) ∧
  (∀ (s : State) (port : Fin 4096) (p q : Nat), s.dev.bkt.jobs = [] → portCtx? s.dev 2 port = some (p, q) → inReplay s.dev = true →
    (logged? s.dev p q = none ∨ completionsDue s.dev = true) → Leaves (.basketDelivery port) s s.dev) ∧
  (∀ (s : State) (port : Fin 4096), s.dev.bkt.jobs = [] → (s.dev.bkt.delivOpen = false ∨ portCtx? s.dev 2 port = none) → Leaves (.basketDelivery port) s s.dev)

/-- R235, R236: a staged completion of a committed design cycle on a port with nothing delivered is an orphan; a completion of the report queue is
written into the ring at TAIL, with its PHASE and its cycle, and TAIL moves on.
R231, R235: when the oldest delivered descriptor of a port completes, it takes the result and the design cycle, and a successor that waits for
it alone becomes QUEUED. Every staged completion up to the committed cycle takes effect, as a completed descriptor or as an orphan; a full
funnel or a drain of the service network delays them (R237, R323), and an entry whose WRITE is not performed stays to be written. The ring's entry of a completion makes its descriptor DONE, and the first after a commit raises interrupt 0x01D.
What follows the model's choices: log entries 15, 23, 95, 100. -/
def Obligations.Completions : Prop :=
  (∀ (s : State) (port cycle : Nat) (v : W64), s.dev.bkt.staged = [(port, cycle, v)] → cycle ≤ s.dev.run.committed →
    bktBusy s.dev = false → oldestDelivered? s.dev port = none →
    (Ends .basketApplyCompletions s fun t =>
      t.dev.bkt.complOrphan = true ∧ t.dev.bkt.complOrphans = s.dev.bkt.complOrphans + 1 ∧
      t.dev.bkt.completed = s.dev.bkt.completed ∧ t.dev.bkt.report = s.dev.bkt.report ∧ t.dev.bkt.descs = s.dev.bkt.descs ∧
      BanksKeep s t ∧ Changes [.tiles, .bkt] s t) ∧
    (s.dev.tiles = [] → Leaves .basketApplyCompletions s { s.dev with bkt := { s.dev.bkt with
      staged := [], complOrphan := true, complOrphans := s.dev.bkt.complOrphans + 1 } })) ∧
  (∀ (s : State) (flow slot cycle : Nat) (rest : List (Nat × Nat × Nat × Nat)) (base size : Nat),
    s.dev.bkt.report = (2, flow, slot, cycle) :: rest → hbmRegion? s.dev 3 = some (base, size) →
    (s.dev.bkt.tail + 1) % 65536 ≠ s.dev.bkt.head → bktStalled s.dev = false →
    let ws := [word [(60, 4, 2), fb 59 s.dev.bkt.phase, (30, 18, flow), (0, 24, slot)], w64 cycle]
    ∀ n d, engineCall (enginePacket bktNode (base + 16 * s.dev.bkt.tail) true 2 ws s.dev) [] s.dev = (n, d) →
    (n ≠ 0 → Leaves .basketRingEntry s d) ∧
    (n = 0 → Leaves .basketRingEntry s { d with
      mem := hbmPutWords s.dev.mem (base + 16 * s.dev.bkt.tail) ws
      bkt := { s.dev.bkt with
        report := rest, tail := (s.dev.bkt.tail + 1) % 65536, ringDue := false
        phase := if s.dev.bkt.tail = 65535 then !s.dev.bkt.phase else s.dev.bkt.phase } })) ∧
  (∀ (s : State), (s.dev.bkt.tail + 1) % 65536 = s.dev.bkt.head → Leaves .basketRingEntry s s.dev) ∧
  (∀ (d : Dev) (port cycle : Nat) (v : W64) (x y : Desc), oldestDelivered? d port = some x → d.bkt.descs = [x, y] → x.slot ≠ noSlot →
    y.slot ≠ x.slot → x.succ = [y.slot] → y.deps = 1 → y.st = 1 →
    let d' := complete port cycle v d
    (d'.bkt.descs.find? fun z => z.slot = x.slot) = some { x with st := 4, doneCycle := cycle, result := v, decd := [y.slot] } ∧
    (d'.bkt.descs.find? fun z => z.slot = y.slot) = some { y with deps := 0, st := 2 } ∧
    d'.bkt.completed = d.bkt.completed + 1 ∧ d'.bkt.report = d.bkt.report ++ [(1, x.flow, x.slot, cycle)]) ∧
  (∀ (s : State), BasketFree s.dev →
    Ends .basketApplyCompletions s fun t =>
      t.dev.bkt.completed + t.dev.bkt.complOrphans = s.dev.bkt.completed + s.dev.bkt.complOrphans
        + w64 (s.dev.bkt.staged.filter fun x => decide (x.2.1 ≤ s.dev.run.committed)).length ∧
      t.dev.run.committed = s.dev.run.committed ∧ BanksKeep s t ∧
        SlotsOnly (s.dev.bkt.descs.map (·.slot)) s.dev t.dev ∧ Changes [.tiles, .mem, .bkt, .sn, .trc] s t) ∧
  (∀ (s : State) (port cycle : Nat) (v : W64) (x : Desc), s.dev.bkt.staged = [(port, cycle, v)] → cycle ≤ s.dev.run.committed →
    bktBusy s.dev = false → oldestDelivered? s.dev port = some x → x.slot ≠ noSlot →
    Ends .basketApplyCompletions s fun t =>
      t.dev.bkt.completed = s.dev.bkt.completed + 1 ∧ t.dev.bkt.complOrphans = s.dev.bkt.complOrphans ∧
      t.dev.bkt.report = s.dev.bkt.report ++ [(1, x.flow, x.slot, cycle)] ∧ BanksKeep s t ∧
        SlotsOnly (s.dev.bkt.descs.map (·.slot)) s.dev t.dev ∧ Changes [.tiles, .mem, .bkt, .sn, .trc] s t) ∧
  (∀ (s : State), bktBlocked s.dev = true →
    Leaves .basketApplyCompletions s { s.dev with bkt := { s.dev.bkt with traceWait := s.dev.bkt.traceWait + w64 (b2n (bktFull s.dev)) } }) ∧
  (∀ (s : State) (kind flow slot cycle : Nat) (rest : List (Nat × Nat × Nat × Nat)) (base size : Nat),
    s.dev.bkt.report = (kind, flow, slot, cycle) :: rest → hbmRegion? s.dev 3 = some (base, size) →
    (s.dev.bkt.tail + 1) % 65536 ≠ s.dev.bkt.head → bktStalled s.dev = false →
    let ws := [word [(60, 4, kind), fb 59 s.dev.bkt.phase, (30, 18, flow), (0, 24, slot)], w64 cycle]
    (engineCall (enginePacket bktNode (base + 16 * s.dev.bkt.tail) true 2 ws s.dev) [] s.dev).1 = 0 →
    Ends .basketRingEntry s fun t =>
      t.dev.bkt.report = rest ∧ t.dev.bkt.tail = (s.dev.bkt.tail + 1) % 65536 ∧ t.dev.bkt.head = s.dev.bkt.head ∧
      t.dev.bkt.phase = (if s.dev.bkt.tail = 65535 then !s.dev.bkt.phase else s.dev.bkt.phase) ∧
      (kind = 1 → (s.dev.bkt.descs.any fun x => x.slot = slot && x.st = 4) = true →
        t.dev.bkt.descs = s.dev.bkt.descs.filter fun y => y.slot ≠ slot) ∧
      (kind ≠ 1 → t.dev.bkt.descs = s.dev.bkt.descs ∧ t.dev.mem = hbmPutWords s.dev.mem (base + 16 * s.dev.bkt.tail) ws) ∧
      (s.dev.bkt.ringDue = true → (∃ e ∈ t.dev.events, e.source = 0x01D)) ∧ Changes [.mem, .bkt, .sn, .trc] s t) ∧
  (∀ (s : State), (s.dev.bkt.report = [] ∨ bktStalled s.dev = true ∨ hbmRegion? s.dev 3 = none) → Leaves .basketRingEntry s s.dev)

/-- R246, R253, R264, R257, R360: the registers and commands that configure, train and take down a link. An enable takes the settings and
starts the protocol afresh; settings that overlap another enabled link are refused; another master changes nothing. TRAIN takes
the lanes that are DOWN to TRAINING, or is refused with its code; DOWN takes them back and resets the protocol, unless a run
uses the link.
What follows the model's choices: log entries 31, 32. -/
def Obligations.LinkControl : Prop :=
  (∀ (s : State) (x : Seat) (lane : Fin 1024) (v : W64) (d : Dev), Passes (.seat x) (aLane lane 0x400) s d →
    (x = .manager ∨ x = .board) → cfgOn (linkOf d lane).cfg = false →
    let w := maskW 0xFFF0 0 v
    cfgOn w = true → lane.val % cfgLanes w = 0 → overlaps d lane (cfgLanes w) = false →
    Ends (.linkCfgWrite (.seat x) lane v) s fun t =>
      let E := linkOf t.dev lane
      E.cfg = w ∧ E.version = 0 ∧ E.rate = 0 ∧ E.txSeq = 0 ∧ E.rxSeq = 0xFFF ∧ E.replay = [] ∧ E.credit = 4096 ∧ E.replays = 0 ∧
      E.crcErrors = 0 ∧ E.retrains = 0 ∧ E.retrainFails = 0 ∧ E.egress = (linkOf d lane).egress ∧ Changes [.lanes, .links, .host] { s with dev := d } t) ∧
  (∀ (s : State) (x : Seat) (lane : Fin 1024) (v : W64) (d : Dev), Passes (.seat x) (aLane lane 0x400) s d →
    (x = .manager ∨ x = .board) →
    let w := maskW 0xFFF0 0 v
    cfgOn w = true → (lane.val % cfgLanes w ≠ 0 ∨ overlaps d lane (cfgLanes w) = true) →
    Leaves (.linkCfgWrite (.seat x) lane v) s (logOpen (updLink d lane fun E => { E with cfgRefused := true }))) ∧
  (∀ (s : State) (x : Seat) (lane : Fin 1024) (v : W64), Judged s → x ≠ .manager → x ≠ .board →
    Leaves (.linkCfgWrite (.seat x) lane v) s (seatError (.seat x) false (denySeat x (takeUp x s.dev)))) ∧
  (∀ (s : State) (x : Seat) (lane : Fin 1024) (d : Dev), Passes (.seat x) (aLane lane 0x408) s d → (x = .manager ∨ x = .board) →
    cfgOn (linkOf d lane).cfg = true → lanesEntering d lane = false → linkState d lane = 0 → trainCode d lane = 0 →
    Ends (.linkCtrlTrain (.seat x) lane) s fun t =>
      (linkOf t.dev lane).training = true ∧ (linkOf t.dev lane).retraining = false ∧ t.dev.pins.lanesIdle = false ∧
      (∀ i ∈ members d lane, (laneOf d i).st = .down → (laneOf t.dev i).st = .training) ∧
      (∀ i, (i ∉ members d lane ∨ (laneOf d i).st ≠ .down) → laneOf t.dev i = laneOf d i) ∧ Changes [.lanes, .links, .pins, .host] { s with dev := d } t) ∧
  (∀ (s : State) (x : Seat) (lane : Fin 1024) (d : Dev), Passes (.seat x) (aLane lane 0x408) s d → (x = .manager ∨ x = .board) →
    cfgOn (linkOf d lane).cfg = true → lanesEntering d lane = false → linkState d lane = 0 → trainCode d lane ≠ 0 →
    Ends (.linkCtrlTrain (.seat x) lane) s fun t =>
      (linkOf t.dev lane).reason = trainCode d lane ∧ Changes [.links, .host, .keep, .free] { s with dev := d } t) ∧
  (∀ (s : State) (x : Seat) (c : Cmd) (rest : List Cmd) (l : Nat), Turn s x 0x0701 c rest → c.relayed = false →
    (seatOf s.dev.host x).discard = false → namedLink s.dev (c.par 1) = some l → lanesEntering s.dev l = false →
    linkState s.dev l = 0 → trainCode s.dev l = 0 →
    Ends (.linkTrain x) s fun t =>
      (linkOf t.dev l).training = true ∧ Answered c 0 t.dev ∧
      (∀ i ∈ members s.dev l, (laneOf s.dev i).st = .down → (laneOf t.dev i).st = .training) ∧ Changes [.lanes, .links, .pins, .host] s t) ∧
  (∀ (s : State) (x : Seat) (lane : Fin 1024) (d : Dev), Passes (.seat x) (aLane lane 0x408) s d → (x = .manager ∨ x = .board) →
    cfgOn (linkOf d lane).cfg = true → inUse d lane = false →
    Ends (.linkCtrlDown (.seat x) lane) s fun t =>
      let E := linkOf t.dev lane
      t.dev.lanes = (updLanes (members d lane) laneDown d).lanes ∧ E.cfg = (linkOf d lane).cfg ∧ E.training = false ∧ E.txSeq = 0 ∧
      E.rxSeq = 0xFFF ∧ E.replay = [] ∧ E.credit = 4096 ∧ E.egress = (linkOf d lane).egress ∧ Changes [.lanes, .links, .host] { s with dev := d } t) ∧
  (∀ (s : State) (x : Seat) (lane : Fin 1024) (d : Dev), Passes (.seat x) (aLane lane 0x408) s d → (x = .manager ∨ x = .board) →
    cfgOn (linkOf d lane).cfg = true → inUse d lane = true →
    Ends (.linkCtrlDown (.seat x) lane) s fun t =>
      (linkOf t.dev lane).inUse = true ∧ (linkOf t.dev lane).reason = 0x0712 ∧ Changes [.links, .host, .keep, .free] { s with dev := d } t) ∧
  (∀ (s : State) (x : Seat) (c : Cmd) (rest : List Cmd) (l : Nat), Turn s x 0x0702 c rest → c.relayed = false →
    (seatOf s.dev.host x).discard = false → namedLink s.dev (c.par 1) = some l → inUse s.dev l = false →
    Ends (.linkDown x) s fun t =>
      t.dev.lanes = (updLanes (members s.dev l) laneDown s.dev).lanes ∧ (linkOf t.dev l).training = false ∧
      (linkOf t.dev l).replay = [] ∧ (linkOf t.dev l).credit = 4096 ∧ Answered c 0 t.dev ∧ Changes [.lanes, .links, .host] s t) ∧
  (∀ (s : State) (lane : Fin 1032), enteringLinks s.dev lane = [] → Leaves (.lanesDownReached lane) s s.dev) ∧
  (∀ (s : State) (x : Seat) (lane : Fin 1024) (v : W64) (d : Dev), Passes (.seat x) (aLane lane 0x400) s d →
    (x = .manager ∨ x = .board) → cfgOn v = false → inUse d lane = true →
    Ends (.linkCfgWrite (.seat x) lane v) s fun t =>
      (linkOf t.dev lane).inUse = true ∧ (linkOf t.dev lane).reason = 0x0712 ∧ (linkOf t.dev lane).cfg = (linkOf d lane).cfg ∧
      linkState t.dev lane = 3 ∧ Changes [.links, .host, .keep, .free] { s with dev := d } t) ∧
  (∀ (s : State) (lane : Fin 1032), lanesRun s.dev lane = true → (∀ l, (linkOf s.dev l).restart = false) →
    Leaves (.lanesDownReached lane) s ((enteringLinks s.dev lane).foldl (fun d l => updLink d l fun E => { E with entering := 0 }) s.dev)) ∧
  (∀ (s : State) (lane : Fin 1032) (l : Nat), lanesRun s.dev lane = true → enteringLinks s.dev lane = [l] → l < 1024 → cfgOn (linkOf s.dev l).cfg = true →
    twf Link.reset s.dev.links = true → (linkOf s.dev l).restart = true → (∀ k, k ≠ l → (linkOf s.dev k).restart = false) → lanesEntering s.dev l = true →
    let d := updLink s.dev l fun E => { E with entering := 0 }
    lanesEntering d l = false →
    Leaves (.lanesDownReached lane) s (trainLink l (updLink d l fun E => { E with restart := false })))

/-- R262 to R265: a loopback, the pattern register, the checker and the eye scan of a lane; none goes on while its logic stands (R348, R358).
What follows the model's choices: log entry 33. -/
def Obligations.LaneTests : Prop :=
  (∀ (s : State) (x : Seat) (lane : Fin 1032) (v : W64) (d : Dev), Passes (.seat x) (aLane lane 0x8) s d → (x = .manager ∨ x = .board) →
    fld v 2 0 ≠ 0 → (laneOf d lane).st = .down →
    Leaves (.loopWrite (.seat x) lane v) s (updLane d lane fun A => { A with loop := fld v 2 0, farLock := false, clean := 0, st := .loopback })) ∧
  (∀ (s : State) (x : Seat) (lane : Fin 1032) (v : W64) (d : Dev), Passes (.seat x) (aLane lane 0x8) s d → (x = .manager ∨ x = .board) →
    fld v 2 0 = 0 → (laneOf d lane).st = .loopback →
    Leaves (.loopWrite (.seat x) lane v) s (updLane d lane fun A => { A with loop := 0, farLock := false, clean := 0, st := .down })) ∧
  (∀ (s : State) (x : Seat) (lane : Fin 1032) (v : W64) (d : Dev), Passes (.seat x) (aLane lane 0x8) s d → (x = .manager ∨ x = .board) →
    fld v 2 0 ≠ 0 → (laneOf d lane).st ≠ .down → (∀ l, linkOfLane? d lane = some l → inUse d l = false) →
    Leaves (.loopWrite (.seat x) lane v) s (logOpen (updLane d lane fun A => { A with loopRefused := true }))) ∧
  (∀ (s : State) (x : Seat) (lane : Fin 1032) (v : W64) (d : Dev), Passes (.seat x) (aLane lane 0x40) s d → (x = .manager ∨ x = .board) →
    Leaves (.patCtrlWrite (.seat x) lane v) s
      (updLane d lane fun A =>
        { A with pat := maskW 0xB 0 v, patBits := 0, patErrors := 0, chkLocked := false, gen := BitVec.allOnes 31, clean := 0 })) ∧
  (∀ (s : State) (lane : Fin 1032), lanesRun s.dev lane = true → (laneOf s.dev lane).st = .loopback → bit (laneOf s.dev lane).pat 3 = true →
    ((laneOf s.dev lane).loop = 4 → (laneOf s.dev lane).farLock = true) →
    ((laneOf s.dev lane).loop = 2 ∨ (laneOf s.dev lane).loop = 3 → 64 ≤ (laneOf s.dev lane).clean) →
    Leaves (.checkerLock lane) s (updLane s.dev lane fun A => { A with chkLocked := true })) ∧
  (∀ (s : State) (lane : Fin 1032) (ppm : Int), lanesRun s.dev lane = true → (laneOf s.dev lane).st = .loopback → (laneOf s.dev lane).loop = 4 →
    Ends (.blockLock lane ppm) s fun t => laneSource (laneOf t.dev lane) = .echo ∧ (laneOf t.dev lane).ppm = ppm ∧
      (laneOf t.dev lane).st = .loopback ∧ Changes [.lanes] s t) ∧
  (∀ (s : State) (x : Seat) (lane : Fin 1032) (v : W64) (d : Dev), Passes (.seat x) (aLane lane 0x60) s d → (x = .manager ∨ x = .board) →
    bit v 31 = true → ((laneOf d lane).st = .up ∨ (laneOf d lane).st = .loopback) →
    Ends (.scanStart (.seat x) lane v) s fun t =>
      let A := laneOf t.dev lane
      A.st = .scan ∧ A.scanStart = true ∧ A.scanDone = false ∧ A.scanInvalid = false ∧ A.scanErrors = 0 ∧
      A.scan = maskW 0x3F_7F3F 0 v ∧ A.scanFromLoop = decide ((laneOf d lane).st = .loopback) ∧ Changes [.lanes, .host] { s with dev := d } t) ∧
  (∀ (s : State) (x : Seat) (lane : Fin 1032) (v : W64) (d : Dev), Passes (.seat x) (aLane lane 0x60) s d → (x = .manager ∨ x = .board) →
    bit v 31 = true → (laneOf d lane).st ≠ .up → (laneOf d lane).st ≠ .loopback → (laneOf d lane).st ≠ .scan →
    Leaves (.scanStart (.seat x) lane v) s
      (logOpen (updLane (updLane d lane fun A => { A with scan := maskW 0x3F_7F3F 0 v }) lane fun A => { A with scanRefused := true }))) ∧
  (∀ (s : State) (lane : Fin 1032) (n : Nat), lanesRun s.dev lane = true → (laneOf s.dev lane).st = .scan →
    Leaves (.scanPointDone lane n) s (updLane s.dev lane fun A =>
      { A with scanStart := false, scanDone := true, scanErrors := min n (2 ^ min 36 (max 16 (fld A.scan 21 16)))
               st := if A.scanFromLoop then .loopback else .up })) ∧
  (∀ (s : State) (lane : Fin 1032) (n : Nat), lanesRun s.dev lane = false →
    Leaves (.checkerLock lane) s s.dev ∧ Leaves (.scanPointDone lane n) s s.dev)

/-- R250 to R257: training. A lane in TRAINING with block lock within 200 ppm is LOCKED; one outside ends the training. A link in UP that
loses lock retrains; so does a lane on its own. A TRAIN block that fails a check ends the training with its code; one that
completes the exchange takes every member to UP, and until then it counts; a link that leaves or reaches UP pulses source 0x100 + g; another control block starts the count again, an inverted one
inverts the lane too, and R280: another twin's is refused. R348, R358: nothing happens on a lane whose logic stands.
What follows the model's choices: log entries 29, 31, 97. -/
def Obligations.LinkTraining : Prop :=
  (∀ (s : State) (lane : Fin 1032), lanesRun s.dev lane = true → (laneOf s.dev lane).st = .training → bit (laneOf s.dev lane).cfg 3 = true →
    (laneOf s.dev lane).adapted = false →
    Leaves (.equaliserAdapted lane) s (updLane s.dev lane fun A => { A with adapted := true, signal := true })) ∧
  (∀ (s : State) (lane : Fin 1032) (ppm : Int) (l : Nat), lanesRun s.dev lane = true → linkOfLane? s.dev lane = some l → (laneOf s.dev lane).st = .training →
    -200 ≤ ppm → ppm ≤ 200 →
    Ends (.blockLock lane ppm) s fun t =>
      (laneOf t.dev lane).st = .locked ∧ (laneOf t.dev lane).ppm = ppm ∧ (laneOf t.dev lane).trains = 0 ∧
      (∀ i, i ≠ lane.val → laneOf t.dev i = laneOf s.dev i) ∧ Changes [.lanes] s t) ∧
  (∀ (s : State) (lane : Fin 1032) (ppm : Int) (l : Nat), lanesRun s.dev lane = true → linkOfLane? s.dev lane = some l → (laneOf s.dev lane).st = .training →
    (ppm < -200 ∨ 200 < ppm) →
    Ends (.blockLock lane ppm) s fun t =>
      (linkOf t.dev l).reason = 0x0704 ∧ (linkOf t.dev l).training = false ∧
      t.dev.lanes = (updLanes (members s.dev l) laneDown (updLane s.dev lane fun A => { A with ppm := ppm, signal := true })).lanes ∧
      Changes [.lanes, .links, .keep, .free] s t) ∧
  (∀ (s : State) (lane : Fin 1032) (l : Nat), lanesRun s.dev lane = true → linkOfLane? s.dev lane = some l → linkState s.dev l = 3 →
    Ends (.lockLoss lane) s fun t =>
      (∀ i ∈ members s.dev l, (laneOf t.dev i).st = .training) ∧ (laneOf t.dev lane).lockLoss = (laneOf s.dev lane).lockLoss + 1 ∧
      (linkOf t.dev l).reason = 0x0710 ∧ (linkOf t.dev l).retrains = (linkOf s.dev l).retrains + 1 ∧
      (linkOf t.dev l).retraining = true ∧
      ((laneOf s.dev lane).bad = 0 → (laneOf t.dev lane).syncErr = (laneOf s.dev lane).syncErr + 16) ∧
      (l < 1024 → ∃ e ∈ t.dev.events, e.source = 0x100 + l / 64 ∧ e.pulse = true ∧ e.lane = l) ∧
      Changes [.lanes, .links, .free] s t) ∧
  (∀ (s : State) (lane : Fin 1032), lanesRun s.dev lane = true → linkOfLane? s.dev lane = none →
    ((laneOf s.dev lane).st = .locked ∨ (laneOf s.dev lane).st = .up ∨ (laneOf s.dev lane).st = .scan) →
    Ends (.lockLoss lane) s fun t => (laneOf t.dev lane).st = .training ∧
      (laneOf t.dev lane).lockLoss = (laneOf s.dev lane).lockLoss + 1 ∧ Changes [.lanes, .free] s t) ∧
  (∀ (s : State) (lane : Fin 1032) (b : W64) (skew l : Nat), lanesRun s.dev lane = true → linkOfLane? s.dev lane = some l → (laneOf s.dev lane).st = .locked →
    linkState s.dev l ≠ 3 → fld b 63 56 = 0xA3 → trainCheck s.dev l lane b skew ≠ 0 → trainCheck s.dev l lane b skew ≠ 0x0810 →
    Ends (.trainBlock lane b skew) s fun t =>
      (linkOf t.dev l).reason = trainCheck s.dev l lane b skew ∧ (linkOf t.dev l).training = false ∧
      t.dev.lanes = (updLanes (members s.dev l) laneDown s.dev).lanes ∧ Changes [.lanes, .links, .keep, .free] s t) ∧
  (∀ (s : State) (lane : Fin 1032) (b : W64) (skew l : Nat), lanesRun s.dev lane = true → linkOfLane? s.dev lane = some l → lane.val < 1024 →
    (laneOf s.dev lane).st = .locked → linkState s.dev l ≠ 3 → fld b 63 56 = 0xA3 → trainCheck s.dev l lane b skew = 0 →
    (laneOf s.dev lane).trains = 7 → (laneOf s.dev lane).lastTrain = setBit b 40 false → bit b 40 = true →
    (∀ i ∈ members s.dev l, i ≠ lane.val → (laneOf s.dev i).st = .locked ∧ (laneOf s.dev i).gotAck = true) →
    cfgRate (linkCfg s.dev l) ≠ 2 →
    Ends (.trainBlock lane b skew) s fun t =>
      (∀ i ∈ members s.dev l, (laneOf t.dev i).st = .up) ∧ (linkOf t.dev l).version = version (linkCfg s.dev l) b ∧
      (linkOf t.dev l).partner = partnerOf b ∧ (linkOf t.dev l).everUp = true ∧ (linkOf t.dev l).training = false ∧
      (linkOf t.dev l).retraining = false ∧ (linkOf t.dev l).blockNo = 0 ∧
      (∃ e ∈ t.dev.events, e.source = 0x100 + l / 64 ∧ e.pulse = true ∧ e.lane = l) ∧ Changes [.lanes, .links, .free] s t) ∧
  (∀ (s : State) (lane : Fin 1032) (l : Nat), lanesRun s.dev lane = true → linkOfLane? s.dev lane = some l → (laneOf s.dev lane).st = .training →
    (laneOf s.dev lane).signal = false → (linkOf s.dev l).retraining = false →
    Ends (.linkNoSignal lane) s fun t =>
      (linkOf t.dev l).reason = 0x0703 ∧ t.dev.lanes = (updLanes (members s.dev l) laneDown s.dev).lanes ∧
      Changes [.lanes, .links, .keep, .free] s t) ∧
  (∀ (s : State) (lane : Fin 1032) (l : Nat), lanesRun s.dev lane = true → linkOfLane? s.dev lane = some l → (linkOf s.dev l).training = true →
    (linkOf s.dev l).retraining = false →
    Ends (.linkTrainTimeout lane) s fun t =>
      (linkOf t.dev l).reason = 0x070C ∧ t.dev.lanes = (updLanes (members s.dev l) laneDown s.dev).lanes ∧
      Changes [.lanes, .links, .keep, .free] s t) ∧
  (∀ (s : State) (lane : Fin 1032) (l : Nat), lanesRun s.dev lane = true → linkOfLane? s.dev lane = some l → (linkOf s.dev l).retraining = true →
    Ends (.retrainTimeout lane) s fun t =>
      (linkOf t.dev l).retrainFails = (linkOf s.dev l).retrainFails + 1 ∧ (linkOf t.dev l).retrains = (linkOf s.dev l).retrains + 1 ∧
      (linkOf t.dev l).retraining = true ∧ Changes [.lanes, .links] s t) ∧
  (∀ (s : State) (lane : Fin 1032) (b : W64) (skew l : Nat), lanesRun s.dev lane = true → linkOfLane? s.dev lane = some l → (laneOf s.dev lane).st = .locked →
    linkState s.dev l ≠ 3 → fld b 63 56 = 0xA3 → trainCheck s.dev l lane b skew = 0 → l < 1024 → bit b 40 = false →
    (laneOf s.dev lane).gotAck = false → lane.val ∈ members s.dev l →
    Leaves (.trainBlock lane b skew) s (updLink (updLane s.dev lane fun A => { A with
      trains := if A.trains ≠ 0 ∧ A.lastTrain = b then min 8 (A.trains + 1) else 1, lastTrain := b }) l fun E =>
        { E with partner := partnerOf b, skew := skew })) ∧
  (∀ (s : State) (lane : Fin 1032) (b : W64) (skew l : Nat), lanesRun s.dev lane = true → linkOfLane? s.dev lane = some l → (laneOf s.dev lane).st = .locked →
    linkState s.dev l ≠ 3 → fld b 63 56 ≠ 0xA3 → fld b 63 56 ≠ 0x5C →
    Leaves (.trainBlock lane b skew) s (updLane s.dev lane fun A => { A with trains := 0 })) ∧
  (∀ (s : State) (lane : Fin 1032) (b : W64) (skew l : Nat), lanesRun s.dev lane = true → linkOfLane? s.dev lane = some l →
    ((laneOf s.dev lane).st = .training ∨ (laneOf s.dev lane).st = .locked) → linkState s.dev l ≠ 3 → fld b 63 56 = 0x5C →
    Leaves (.trainBlock lane b skew) s (updLane s.dev lane fun A => { A with inverted := A.inverted || bit A.cfg 2, trains := 0 })) ∧
  (∀ (s : State) (lane : Fin 1032) (b : W64) (skew : Nat), lanesRun s.dev lane = true → linkOfLane? s.dev lane = some 1024 → (laneOf s.dev lane).st = .locked →
    linkState s.dev 1024 ≠ 3 → fld b 63 56 = 0xA3 → trainCheck s.dev 1024 lane b skew = 0x0810 →
    Ends (.trainBlock lane b skew) s fun t =>
      t.dev.pair.reason = 0x0810 ∧ t.dev.pair.wrongTwin = true ∧ t.dev.pair.twinModid = fld b 37 32 ∧
      t.dev.lanes = (updLanes (members s.dev 1024) laneDown s.dev).lanes ∧ Changes [.lanes, .links, .pair, .keep, .free] s t) ∧
  (∀ (s : State) (lane : Fin 1032) (ppm : Int) (b : W64) (skew : Nat), lanesRun s.dev lane = false →
    Leaves (.equaliserAdapted lane) s s.dev ∧ Leaves (.blockLock lane ppm) s s.dev ∧ Leaves (.lockLoss lane) s s.dev ∧
    Leaves (.trainBlock lane b skew) s s.dev ∧ Leaves (.linkNoSignal lane) s s.dev ∧ Leaves (.linkTrainTimeout lane) s s.dev ∧
    Leaves (.retrainTimeout lane) s s.dev ∧ Leaves (.lanesDownReached lane) s s.dev)

/-- R258 to R261: frames. A frame of an EXCHANGE link with the expected SEQ and a good CRC passes its words to the receive buffer; one
ahead of it, with a bad CRC or of another length is refused and a NAK goes out, the eighth in a row retrains the link; one received before
changes nothing. A STREAM link passes up to 32 words; the pair link passes messages, and absorbs one of an unknown kind. An IDLE brings ACK and
CREDIT, and a NAK makes the sender resend. The sender resends first, and sends new words within its credit. R348, R358: nothing passes while
the logic of the lane stands.
What follows the model's choices: log entries 8, 30, 35, 77, 97. -/
def Obligations.LinkFrames : Prop :=
  (∀ (s : State) (lane : Fin 1032) (h : W64) (ws : List W64) (l : Nat), lanesRun s.dev lane = true → linkOfLane? s.dev lane = some l → l < 1024 →
    linkState s.dev l = 3 → cfgMode (linkOf s.dev l).cfg = 0 → fld h 63 56 = 0xA1 → ws.length = fld h 20 16 + 1 → ws.length ≤ 4 →
    crcGood h ws = true → fld h 55 44 = expected (linkOf s.dev l) →
    Ends (.frame lane h ws true) s fun t =>
      let E := linkOf t.dev l
      E.rx = (linkOf s.dev l).rx ++ ws ∧ E.rxSeq = expected (linkOf s.dev l) ∧ E.nakPending = false ∧ E.wire = (linkOf s.dev l).wire ∧
      Changes [.links] s t) ∧
  (∀ (s : State) (lane : Fin 1032) (h : W64) (ws : List W64) (valid : Bool) (l : Nat), lanesRun s.dev lane = true → linkOfLane? s.dev lane = some l →
    linkState s.dev l = 3 → (valid = false ∨ fld h 63 56 ≠ 0xA1 ∨ crcGood h ws = false) →
    let d := updLink (if valid then s.dev else badHeader lane s.dev) l fun E => { E with crcErrors := E.crcErrors + 1 }
    let E := linkOf d l
    E.nakRow ≠ 7 →
    Leaves (.frame lane h ws valid) s (putIdle l true (updLink d l fun E' => { E' with
      nakPending := true, nakSeq := expected E, nakRow := if E.nakRow ≠ 0 ∧ E.nakSeq = expected E then E.nakRow + 1 else 1 }))) ∧
  (∀ (s : State) (lane : Fin 1032) (h : W64) (ws : List W64) (l : Nat), linkOfLane? s.dev lane = some l → l < 1024 →
    linkState s.dev l = 3 → cfgMode (linkOf s.dev l).cfg = 0 → fld h 63 56 = 0xA1 → ws.length = fld h 20 16 + 1 → ws.length ≤ 4 →
    crcGood h ws = true → 2048 ≤ (fld h 55 44 + 4096 - expected (linkOf s.dev l)) % 4096 →
    Leaves (.frame lane h ws true) s s.dev) ∧
  (∀ (s : State) (lane : Fin 1032) (h : W64) (ws : List W64) (valid : Bool) (l : Nat), linkOfLane? s.dev lane = some l →
    linkState s.dev l ≠ 3 → Leaves (.frame lane h ws valid) s s.dev ∧ Leaves (.idle lane h) s s.dev) ∧
  (∀ (s : State) (lane : Fin 1032) (h : W64) (l : Nat), lanesRun s.dev lane = true → linkOfLane? s.dev lane = some l → linkState s.dev l = 3 →
    fld h 63 56 = 0xA2 → crcGood h [] = true → bit h 20 = false → (l = 1024 → s.dev.pair.inTransfer = none) →
    Leaves (.idle lane h) s (updLink s.dev l (takeAck h))) ∧
  (∀ (s : State) (lane : Fin 1032) (h : W64) (l : Nat), lanesRun s.dev lane = true → linkOfLane? s.dev lane = some l → l < 1024 → linkState s.dev l = 3 →
    (linkOf s.dev l).nakInRow ≠ 7 → fld h 63 56 = 0xA2 → crcGood h [] = true → bit h 20 = true →
    Ends (.idle lane h) s fun t =>
      let E := linkOf t.dev l
      E.resend = 0 ∧ E.replays = (linkOf s.dev l).replays + 1 ∧ E.replay = (ackFrames (fld h 43 32) (linkOf s.dev l)).replay ∧
      Changes [.links] s t) ∧
  (∀ (s : State) (lane : Fin 1032) (l : Nat), lanesRun s.dev lane = true → linkOfLane? s.dev lane = some l → linkState s.dev l = 3 →
    (linkOf s.dev l).nakPending = true → (linkOf s.dev l).nakRow ≠ 7 →
    Ends (.nakResend lane) s fun t =>
      let E := linkOf t.dev l
      E.nakPending = true ∧ E.crcErrors = (linkOf s.dev l).crcErrors ∧
      E.wire = (linkOf s.dev l).wire ++ [(idleBlock (linkOf s.dev l) true, [])] ∧ Changes [.lanes, .links] s t) ∧
  (∀ (s : State) (lane : Fin 1032) (l : Nat) (F : TxFrame), lanesRun s.dev lane = true → linkOfLane? s.dev lane = some l → linkState s.dev l = 3 →
    (linkOf s.dev l).replay[(linkOf s.dev l).resend]? = some F →
    Leaves (.frameSend lane) s (updLink (putBlocks l (frameBlock (linkOf s.dev l) F) F.words s.dev) l fun E =>
      { E with resend := E.resend + 1 })) ∧
  (∀ (s : State) (lane : Fin 1032) (l : Nat) (ws : List W64), lanesRun s.dev lane = true → linkOfLane? s.dev lane = some l → l < 1024 → linkState s.dev l = 3 →
    cfgMode (linkOf s.dev l).cfg = 0 → (linkOf s.dev l).replay[(linkOf s.dev l).resend]? = none →
    ws = (linkOf s.dev l).egress.take (min 4 (linkOf s.dev l).credit) → ws ≠ [] →
    (linkOf s.dev l).replay.length < 64 * cfgLanes (linkOf s.dev l).cfg →
    Ends (.frameSend lane) s fun t =>
      let E := linkOf s.dev l
      let E' := linkOf t.dev l
      E'.txSeq = (E.txSeq + 1) % 4096 ∧ E'.replay = E.replay ++ [⟨E.txSeq, ws⟩] ∧ E'.credit = E.credit - ws.length ∧
      E'.egress = E.egress.drop ws.length ∧ E'.wire = E.wire ++ [(frameBlock E ⟨E.txSeq, ws⟩, ws)] ∧
      E'.blockNo = E.blockNo + 1 + ws.length ∧ Changes [.lanes, .links] s t) ∧
  (∀ (s : State) (lane : Fin 1032) (l : Nat), lanesRun s.dev lane = true → linkOfLane? s.dev lane = some l → linkState s.dev l = 3 →
    Ends (.idleSend lane) s fun t =>
      let E := linkOf s.dev l
      let i := l + E.blockNo % cfgLanes (linkCfg s.dev l)
      t.dev.links = (updLink s.dev l fun E => { E with wire := E.wire ++ [(idleBlock E false, [])], blockNo := E.blockNo + 1 }).links ∧
      laneOf t.dev i = sendBlock (jtagTest s.dev) 0b10 (idleBlock E false) (laneOf s.dev i) ∧
      (∀ j, j ≠ i → laneOf t.dev j = laneOf s.dev j) ∧ Changes [.lanes, .links] s t) ∧
  (∀ (s : State) (lane : Fin 1032) (b : W64) (skew l : Nat), lanesRun s.dev lane = true → linkOfLane? s.dev lane = some l → linkState s.dev l = 3 →
    fld b 63 56 = 0xA3 → (linkOf s.dev l).nakRow ≠ 7 →
    Ends (.trainBlock lane b skew) s fun t =>
      (linkOf t.dev l).crcErrors = (linkOf s.dev l).crcErrors + 1 ∧ (linkOf t.dev l).nakPending = true ∧
      (linkOf t.dev l).rx = (linkOf s.dev l).rx ∧ Changes [.lanes, .links] s t) ∧
  (∀ (s : State) (lane : Fin 1032) (h : W64) (ws : List W64) (l : Nat), lanesRun s.dev lane = true → linkOfLane? s.dev lane = some l → l < 1024 →
    linkState s.dev l = 3 → cfgMode (linkOf s.dev l).cfg ≠ 0 → fld h 63 56 = 0xA1 → ws.length = fld h 20 16 + 1 →
    crcGood h ws = true → fld h 55 44 = expected (linkOf s.dev l) →
    Ends (.frame lane h ws true) s fun t =>
      let E := linkOf t.dev l
      E.rx = (linkOf s.dev l).rx ++ ws ∧ E.rxSeq = expected (linkOf s.dev l) ∧ E.nakPending = false ∧ E.wire = (linkOf s.dev l).wire ∧
      Changes [.links] s t) ∧
  (∀ (s : State) (lane : Fin 1032) (h : W64) (ws : List W64), lanesRun s.dev lane = true → linkOfLane? s.dev lane = some 1024 → linkState s.dev 1024 = 3 →
    fld h 63 56 = 0xA1 → ws.length = fld h 20 16 + 1 → crcGood h ws = true → fld h 55 44 = expected (linkOf s.dev 1024) →
    Ends (.frame lane h ws true) s fun t =>
      t.dev.links = (updLink (updLink (updLink s.dev 1024 (takeAck h)) 1024 fun E =>
        { E with rxSeq := fld h 55 44, nakPending := false, nakRow := 0 }) 1024 fun E => { E with freed := E.freed + ws.length }).links ∧
      t.dev.pair.absorbed = (if ws.head?.any pairKind then s.dev.pair.absorbed else s.dev.pair.absorbed + 1) ∧
      Changes [.links, .pair] s t) ∧
  (∀ (s : State) (lane : Fin 1032) (h : W64) (ws : List W64) (l : Nat), lanesRun s.dev lane = true → linkOfLane? s.dev lane = some l → linkState s.dev l = 3 →
    (linkOf s.dev l).nakRow ≠ 7 →
    ((ws.length ≠ fld h 20 16 + 1 ∨ frameMax s.dev l < ws.length) ∨
      crcGood h ws = true ∧ fld h 63 56 = 0xA1 ∧ (linkOf s.dev l).nakPending = false ∧ fld h 55 44 ≠ expected (linkOf s.dev l) ∧
        (fld h 55 44 + 4096 - expected (linkOf s.dev l)) % 4096 < 2048) →
    Ends (.frame lane h ws true) s fun t =>
      (linkOf t.dev l).crcErrors = (linkOf s.dev l).crcErrors + 1 ∧ (linkOf t.dev l).nakPending = true ∧
      (linkOf t.dev l).rx = (linkOf s.dev l).rx ∧ (linkOf t.dev l).rxSeq = (linkOf s.dev l).rxSeq ∧ Changes [.lanes, .links] s t) ∧
  (∀ (s : State) (lane : Fin 1032) (h : W64) (ws : List W64) (valid : Bool), linkOfLane? s.dev lane = none →
    Leaves (.frame lane h ws valid) s s.dev ∧ Leaves (.idle lane h) s s.dev ∧ Leaves (.frameSend lane) s s.dev ∧
    Leaves (.idleSend lane) s s.dev ∧ Leaves (.nakResend lane) s s.dev) ∧
  (∀ (s : State) (lane : Fin 1032) (h : W64) (ws : List W64) (l : Nat), lanesRun s.dev lane = true → linkOfLane? s.dev lane = some l → linkState s.dev l = 3 →
    (linkOf s.dev l).nakRow = 7 → (linkOf s.dev l).nakSeq = expected (linkOf s.dev l) → crcGood h ws = false →
    Ends (.frame lane h ws true) s fun t =>
      (linkOf t.dev l).reason = 0x0711 ∧ (linkOf t.dev l).retraining = true ∧
      (linkOf t.dev l).retrains = (linkOf s.dev l).retrains + 1 ∧ (∀ i ∈ members s.dev l, (laneOf t.dev i).st = .training) ∧
      Changes [.lanes, .links] s t) ∧
  (∀ (s : State) (lane : Fin 1032) (m : List W64) (rest : List (List W64)), lanesRun s.dev lane = true → linkOfLane? s.dev lane = some 1024 →
    linkState s.dev 1024 = 3 → (linkOf s.dev 1024).replay[(linkOf s.dev 1024).resend]? = none → s.dev.pair.outbox = m :: rest →
    m ≠ [] → m.length ≤ (linkOf s.dev 1024).credit → (linkOf s.dev 1024).replay.length < replayMax s.dev 1024 →
    Ends (.frameSend lane) s fun t =>
      let E := linkOf s.dev 1024
      t.dev.pair.outbox = rest ∧ (linkOf t.dev 1024).replay = E.replay ++ [⟨E.txSeq, m⟩] ∧
      (linkOf t.dev 1024).wire = E.wire ++ [(frameBlock E ⟨E.txSeq, m⟩, m)] ∧ Changes [.lanes, .links, .pair] s t) ∧
  (∀ (s : State) (lane : Fin 1032) (l : Nat), linkOfLane? s.dev lane = some l → linkState s.dev l = 3 →
    (linkOf s.dev l).replay[(linkOf s.dev l).resend]? = none →
    (nextWords s.dev l = [] ∨ (linkOf s.dev l).credit < (nextWords s.dev l).length ∨ replayMax s.dev l ≤ (linkOf s.dev l).replay.length) →
    Leaves (.frameSend lane) s s.dev) ∧
  (∀ (s : State) (lane : Fin 1032) (h : W64) (ws : List W64) (valid : Bool), lanesRun s.dev lane = false →
    Leaves (.frame lane h ws valid) s s.dev ∧ Leaves (.idle lane h) s s.dev ∧ Leaves (.nakResend lane) s s.dev ∧
    Leaves (.frameSend lane) s s.dev ∧ Leaves (.idleSend lane) s s.dev)

/-- R274, R275, R272, R277, R279: a lost link is recorded and strands a RUNNING module at its committed cycle. PLAN_STOP names the
agreed stop cycle and arms STOP_AT with it; PLAN_REWIND names the common cycle; SETTLE takes STRANDED to STOPPED. Each is refused with
its code otherwise.
What follows the model's choices: log entries 8, 9, 52, 93. -/
def Obligations.SystemPlans : Prop :=
  (∀ (s : State) (lane : Fin 1024), nocOn s.dev.clk = true → lostLink s.dev lane = true → s.dev.run.st = .running → s.dev.sys.lost = false →
    Ends (.partnerLost lane) s fun t =>
      t.dev.run.st = .stranded ∧ t.dev.run.midCycle = true ∧ t.dev.run.committed = s.dev.run.committed ∧
      t.dev.run.set.getLsbD 12 = true ∧ t.dev.sys.lost = true ∧ t.dev.sys.lostLane = lane.val ∧
      t.dev.sys.strandLane = lane.val ∧ t.dev.sys.lostModid = fld (linkOf s.dev lane).partner 53 48 ∧ t.dev.sys.lostCycle = s.dev.run.committed ∧
      ((∀ r, (regionOf s.dev r).isolatePend = false) →
        BanksKeep s t ∧ (s.dev.cap.armed = false → t.dev.mem.hbm = s.dev.mem.hbm)) ∧
      Changes [.tiles, .exch, .tio, .mem, .regions, .ld, .run, .trail, .cap, .bkt, .links, .sys, .keep, .sn, .trc, .free] s t) ∧
  (∀ (s : State) (lane : Fin 1024), nocOn s.dev.clk = true → lostLink s.dev lane = true → s.dev.run.st ≠ .running → s.dev.sys.lost = false →
    Ends (.partnerLost lane) s fun t =>
      t.dev.sys.lost = true ∧ t.dev.sys.lostLane = lane.val ∧ Changes [.sys, .keep, .free] s t) ∧
  (∀ (s : State) (lane : Fin 1024), (lostLink s.dev lane = false ∨ nocOn s.dev.clk = false) → Leaves (.partnerLost lane) s s.dev) ∧
  (∀ (s : State) (x : Seat) (d : Dev), Passes (.seat x) (aRun 0xC08) s d → (x = .manager ∨ x = .board) → 3 ≤ stCode d.run.st →
    d.sys.master = true →
    let n := d.run.committed + d.sys.diameter + max 2 d.sys.margin
    Ends (.sysCtrlPlanStop (.seat x)) s fun t =>
      t.dev.sys.planStop = n ∧ t.dev.sys.planDone = true ∧ t.dev.sys.reason = 0 ∧ t.dev.run.stopAt = n % 2 ^ 64 ∧
      t.dev.run.stopAtEn = true ∧ t.dev.run.mode = d.run.mode ∧ Changes [.run, .sys, .host, .sn, .trc] { s with dev := d } t) ∧
  (∀ (s : State) (x : Seat) (d : Dev), Passes (.seat x) (aRun 0xC08) s d → (x = .manager ∨ x = .board) → 3 ≤ stCode d.run.st →
    d.sys.master = false →
    Ends (.sysCtrlPlanStop (.seat x)) s fun t =>
      t.dev.sys.reason = 0x0802 ∧ t.dev.sys.planStop = d.sys.planStop ∧ Changes [.sys, .host, .keep, .free] { s with dev := d } t) ∧
  (∀ (s : State) (x : Seat) (c : Cmd) (rest : List Cmd), Turn s x 0x0801 c rest → c.relayed = false →
    (seatOf s.dev.host x).discard = false → 3 ≤ stCode s.dev.run.st → s.dev.sys.master = true →
    let n := s.dev.run.committed + s.dev.sys.diameter + max 2 s.dev.sys.margin
    Ends (.planStop x) s fun t =>
      t.dev.sys.planStop = n ∧ t.dev.run.stopAt = n % 2 ^ 64 ∧ t.dev.run.stopAtEn = true ∧ Answered c 0 t.dev ∧
      (seatOf t.dev.host x).rspBuf = mwriteBytes (seatOf s.dev.host x).rspBuf 0 (responseBytes c 0 [w64 n]) ∧
      Changes [.run, .sys, .host, .sn, .trc] s t) ∧
  (∀ (s : State) (x : Seat) (d : Dev), Passes (.seat x) (aRun 0xC08) s d → (x = .manager ∨ x = .board) → planRewindCode d = 0 →
    Leaves (.sysCtrlPlanRewind (.seat x)) s
      { d with sys := { d.sys with planRewind := commonCycle d, planDone := true, reason := 0 } }) ∧
  (∀ (s : State) (x : Seat) (d : Dev), Passes (.seat x) (aRun 0xC08) s d → (x = .manager ∨ x = .board) → planRewindCode d ≠ 0 →
    Ends (.sysCtrlPlanRewind (.seat x)) s fun t =>
      t.dev.sys.reason = planRewindCode d ∧ t.dev.sys.planRewind = 0 ∧ Changes [.sys, .host, .keep, .free] { s with dev := d } t) ∧
  (∀ (s : State) (x : Seat) (c : Cmd) (rest : List Cmd), Turn s x 0x0802 c rest → c.relayed = false →
    (seatOf s.dev.host x).discard = false →
    let d := (List.range 64).foldl (fun d m => writeViewH m (c.par (2 * m + 2)) (writeViewC m (c.par (2 * m + 1)) d)) s.dev
    planRewindCode d = 0 →
    Ends (.planRewind x) s fun t =>
      t.dev.sys.viewCommitted = d.sys.viewCommitted ∧ t.dev.sys.viewHead = d.sys.viewHead ∧ t.dev.sys.planRewind = commonCycle d ∧
      Answered c 0 t.dev ∧ Changes [.sys, .host] s t) ∧
  (∀ (s : State) (x : Seat) (d : Dev), Passes (.seat x) (aRun 0xC08) s d → (x = .manager ∨ x = .board) → d.run.st = .stranded →
    Ends (.sysCtrlSettle (.seat x)) s fun t =>
      t.dev.run.st = .stopped ∧ t.dev.run.committed = d.run.committed ∧ t.dev.sys.reason = 0 ∧
      Changes [.tiles, .mem, .regions, .ld, .run, .trail, .cap, .bkt, .sys, .host, .keep, .sn, .trc, .free] { s with dev := d } t) ∧
  (∀ (s : State) (x : Seat) (d : Dev), Passes (.seat x) (aRun 0xC08) s d → (x = .manager ∨ x = .board) → d.run.st ≠ .stranded →
    Ends (.sysCtrlSettle (.seat x)) s fun t => t.dev.sys.reason = 4 ∧ Changes [.sys, .host, .keep, .free] { s with dev := d } t) ∧
  (∀ (s : State) (x : Seat) (c : Cmd) (rest : List Cmd), Turn s x 0x0803 c rest → c.relayed = false →
    (seatOf s.dev.host x).discard = false → s.dev.run.st = .stranded →
    Ends (.settle x) s fun t =>
      t.dev.run.st = .stopped ∧ t.dev.run.committed = s.dev.run.committed ∧ Answered c 0 t.dev ∧
      Changes [.tiles, .mem, .regions, .ld, .run, .trail, .cap, .bkt, .sys, .host, .keep, .sn, .trc, .free] s t)

/-- R280 to R282: the pair link trains by itself where nothing forbids it; PAIR_CFG sets its fields. A HEARTBEAT says who and in what
state; a received one keeps the twin alive, and the eighth missing one in a row declares it gone. R348, R358: nothing happens on the pair link
while its logic stands.
What follows the model's choices: log entries 8, 34, 52. -/
def Obligations.TwinLink : Prop :=
  (∀ (s : State), lanesRun s.dev 1024 = true → s.dev.pair.enable = true → s.dev.pair.wrongTwin = false → s.dev.pair.detached = false → s.dev.clk.pw ≠ 4 →
    linkState s.dev 1024 = 0 → lanesEntering s.dev 1024 = false → trainCode s.dev 1024 = 0 →
    Ends .pairLinkTrain s fun t =>
      (linkOf t.dev 1024).training = true ∧
      (∀ i ∈ members s.dev 1024, (laneOf s.dev i).st = .down → (laneOf t.dev i).st = .training) ∧ Changes [.lanes, .links, .pins] s t) ∧
  (∀ (s : State), (lanesRun s.dev 1024 = false ∨ s.dev.pair.enable = false ∨ s.dev.pair.wrongTwin = true ∨ s.dev.pair.detached = true) →
    Leaves .pairLinkTrain s s.dev) ∧
  (∀ (s : State) (x : Seat) (v : W64) (d : Dev), Passes (.seat x) (aRun 0xC40) s d → (x = .manager ∨ x = .board) →
    Ends (.pairCfgWrite (.seat x) v) s fun t =>
      t.dev.pair = { (if d.pair.enable = bit v 0 then d else dropMirror d).pair with
        mint := fld v 12 8, relayAny := bit v 2, mirror := bit v 1, enable := bit v 0, wrongTwin := false, mirrorStopped := false } ∧
      (d.pair.enable = bit v 0 → t.dev.links = d.links ∧ t.dev.lanes = d.lanes) ∧
      (d.pair.enable = false → bit v 0 = true → t.dev.links = (updLink d 1024 resetProto).links ∧ t.dev.lanes = d.lanes) ∧
      (d.pair.enable = true → bit v 0 = false → t.dev.lanes = (updLanes (members d 1024) laneDown d).lanes) ∧
      Changes [.lanes, .links, .pair, .host] { s with dev := d } t) ∧
  (∀ (s : State), lanesRun s.dev 1024 = true → pairUp s.dev = true →
    Leaves .heartbeatSend s { s.dev with pair := { s.dev.pair with outbox := s.dev.pair.outbox ++
      [[word [(56, 8, 1), (50, 6, s.dev.fuse.modid.toNat), (46, 4, stCode s.dev.run.st), fb 45 s.dev.pair.detaching
             , (0, 32, s.dev.run.committed)]]] } }) ∧
  (∀ (s : State), pairUp s.dev = false → Leaves .heartbeatSend s s.dev) ∧
  (∀ (s : State) (w : W64), lanesRun s.dev 1024 = true → pairUp s.dev = true → fld w 63 56 = 1 →
    Leaves (.heartbeat w) s { s.dev with pair := { s.dev.pair with twinState := fld w 49 46, twinAlive := true, hbRow := 0 } }) ∧
  (∀ (s : State), lanesRun s.dev 1024 = true → s.dev.pair.twinDetached = false → s.dev.pair.hbRow < 7 →
    Leaves .heartbeatMissed s { s.dev with pair := { s.dev.pair with
      hbMissed := s.dev.pair.hbMissed + 1, hbRow := s.dev.pair.hbRow + 1 } }) ∧
  (∀ (s : State), lanesRun s.dev 1024 = true → s.dev.pair.twinDetached = false → s.dev.pair.hbRow = 7 → s.dev.host.held = [] →
    Leaves .heartbeatMissed s { s.dev with pair := { s.dev.pair with
      hbMissed := s.dev.pair.hbMissed + 1, hbRow := 8, twinGone := true, twinAlive := false, rspBuf := [] } }) ∧
  (∀ (s : State), lanesRun s.dev 1024 = true → s.dev.pair.twinDetached = true →
    Leaves .heartbeatMissed s { s.dev with pair := { s.dev.pair with hbMissed := s.dev.pair.hbMissed + 1 } }) ∧
  (∀ (s : State) (x : Seat) (c : Cmd), lanesRun s.dev 1024 = true → s.dev.pair.twinDetached = false → s.dev.pair.hbRow = 7 → s.dev.host.held = [c] →
    c.opcode = 0x0810 → c.relayed = false → c.seat = x → (seatOf s.dev.host x).discard = false →
    Ends .heartbeatMissed s fun t => t.dev.pair.twinGone = true ∧ t.dev.pair.reason = 0x0811 ∧ t.dev.host.held = [] ∧
      Answered c 0x0811 t.dev ∧
      Changes [.pair, .host, .keep, .free] s t) ∧
  (∀ (s : State) (w : W64), lanesRun s.dev 1024 = false →
    Leaves .heartbeatSend s s.dev ∧ Leaves (.heartbeat w) s s.dev ∧ Leaves .heartbeatMissed s s.dev)

/-- R283: the checkpoint in transfer goes to the twin over the pair link as a MIRROR_DATA message for each 31 words, then its MIRROR_DONE
with the CRC. A received one is written into the slot of the MIRROR region that it names, and is valid once its CRC matches; while the service
network drains toward its stack it waits (R323).
R284 to R286: RELAY sends a command to the twin and completes with its response, or at once where the twin is gone; a relayed command
joins the accepted ones, or is answered RELAY_REFUSED. DETACH is announced and, once acknowledged or after its time, takes the
module's lanes and pins out.
A message that is not the last of its command or response is kept with what came before.
What follows the model's choices: log entries 6, 8, 26, 34, 53, 54, 98, 100. -/
def Obligations.TwinMessages : Prop :=
  (∀ (s : State) (k : Ckpt), s.dev.pair.inTransfer = some k → s.dev.pair.twinDetached = false → lanesRun s.dev 1024 = true → pairUp s.dev = true →
    s.dev.pair.mirrorQueued = false →
    Ends .mirrorSend s fun t =>
      (∃ h : List W64, h.length = 4 ∧ t.dev.pair.outbox = s.dev.pair.outbox
        ++ (mirrorMessages s.dev.pair.outSlot
          ([w64 s.dev.fuse.modid.toNat, s.dev.ld.buildId, w64 k.cycle, w64 (8 * (mirrorBody s.dev k).length)] ++ h ++ mirrorBody s.dev k)
        ++ [[word [(56, 8, 3), fb 48 s.dev.pair.outSlot, (0, 32, crc32c (bytesOfWords (mirrorBody s.dev k)))], w64 k.cycle]])) ∧
      t.dev.pair.inTransfer = some k ∧ t.dev.pair.mirrorQueued = true ∧ t.dev.pair.mirrorOut = s.dev.pair.mirrorOut ∧
      t.dev.pair.outSlot = (!s.dev.pair.outSlot) ∧ Changes [.pair, .free] s t) ∧
  (∀ (s : State), s.dev.pair.inTransfer = none → Leaves .mirrorSend s s.dev) ∧
  (∀ (s : State) (w : W64) (ws : List W64) (base size : Nat), lanesRun s.dev 1024 = true → pairUp s.dev = true → fld w 63 56 = 2 →
    mirrorRegion? s.dev = some (base, size) → fld w 39 0 + 8 * ws.length ≤ size / 2 → ws.length ≤ 31 → s.dev.pair.arrived = [] →
    let a := base + b2n (bit w 48) * (size / 2) + fld w 39 0
    engineStalled 0x40A (hbmDie a) s.dev = false → ∀ n d, engineCall (enginePacket 0x40A a true ws.length ws s.dev) [] s.dev = (n, d) →
    Leaves (.mirrorData w ws) s { (if n = 0 then putHbmWords a ws d else d) with
      pair := { s.dev.pair with inLen := if fld w 39 0 = 0 then 8 * ws.length
                                         else max s.dev.pair.inLen (fld w 39 0 + 8 * ws.length) } }) ∧
  (∀ (s : State) (w : W64) (ws : List W64), lanesRun s.dev 1024 = true → pairUp s.dev = true → fld w 63 56 = 2 → mirrorRegion? s.dev = none →
    s.dev.pair.arrived = [] → s.dev.pair.twinDetached = false →
    Leaves (.mirrorData w ws) s { s.dev with pair := { s.dev.pair with
      outbox := s.dev.pair.outbox ++ [[word [(56, 8, 5), fb 53 true, (32, 16, 0x0815)]]] } }) ∧
  (∀ (s : State) (w cycle : W64) (base size : Nat), lanesRun s.dev 1024 = true → pairUp s.dev = true → fld w 63 56 = 3 → mirrorRegion? s.dev = some (base, size) →
    s.dev.pair.arrived = [] →
    crc32c (hbmBytes s.dev.mem (base + b2n (bit w 48) * (size / 2) + 64) (s.dev.pair.inLen - 64)) = fld w 31 0 →
    Leaves (.mirrorDone w cycle) s { s.dev with pair := { s.dev.pair with mirrorIn := cycle.toNat, inLen := 0 } }) ∧
  (∀ (s : State) (w cycle : W64) (base size : Nat), lanesRun s.dev 1024 = true → pairUp s.dev = true → fld w 63 56 = 3 → mirrorRegion? s.dev = some (base, size) →
    s.dev.pair.arrived = [] →
    crc32c (hbmBytes s.dev.mem (base + b2n (bit w 48) * (size / 2) + 64) (s.dev.pair.inLen - 64)) ≠ fld w 31 0 →
    Leaves (.mirrorDone w cycle) s { s.dev with pair := { s.dev.pair with inLen := 0 } }) ∧
  (∀ (s : State) (x : Seat) (c : Cmd) (rest : List Cmd), Turn s x 0x0810 c rest → fld (c.par 1) 1 0 = seatNo x →
    s.dev.pair.twinDetached = false → s.dev.pair.hbRow ≠ 8 →
    Ends (.relay x) s fun t =>
      t.dev.host.held = [c] ∧ t.dev.pair.outbox = s.dev.pair.outbox ++ relayMessages 4 (seatNo x) (c.params.drop 1) ∧
      Changes [.pair, .host] s t) ∧
  (∀ (s : State) (x : Seat) (c : Cmd) (rest : List Cmd), Turn s x 0x0810 c rest → c.relayed = false →
    (seatOf s.dev.host x).discard = false → fld (c.par 1) 1 0 = seatNo x → s.dev.pair.twinDetached = false → s.dev.pair.hbRow = 8 →
    Ends (.relay x) s fun t =>
      Answered c 0x0811 t.dev ∧ t.dev.pair.reason = 0x0811 ∧ t.dev.host.held = [] ∧ Changes [.pair, .host, .keep, .free] s t) ∧
  (∀ (s : State) (w : W64) (ws : List W64), lanesRun s.dev 1024 = true → pairUp s.dev = true → fld w 63 56 = 4 → fld w 15 0 = 0 → bit w 53 = true →
    acceptsRelay s.dev = true → longOp s.dev = false →
    let x := seatOfNo (fld w 55 54)
    let c := parseCmd x true false (mwriteWords [] 0 ws) (seatOf s.dev.host x).prot (seatOf s.dev.host x).port
    catalogCheck (takeUp x s.dev) c 0x204 = 0 →
    Ends (.relayCmd w ws) s fun t =>
      t.dev.host.order = s.dev.host.order ++ [c] ∧ t.dev.pair.relayBuf = [] ∧ Changes [.pair, .host] s t) ∧
  (∀ (s : State) (w : W64) (ws : List W64), lanesRun s.dev 1024 = true → pairUp s.dev = true → fld w 63 56 = 4 → fld w 15 0 = 0 → bit w 53 = true →
    acceptsRelay s.dev = false → s.dev.pair.twinDetached = false →
    Leaves (.relayCmd w ws) s { s.dev with pair := { s.dev.pair with
      relayBuf := [], outbox := s.dev.pair.outbox ++ [[word [(56, 8, 5), (54, 2, fld w 55 54), fb 53 true, (32, 16, 0x0813)]]] } }) ∧
  (∀ (s : State) (w : W64) (ws : List W64) (c : Cmd), lanesRun s.dev 1024 = true → pairUp s.dev = true → fld w 63 56 = 5 → fld w 47 32 = 0 → fld w 15 0 = 0 →
    bit w 53 = true → s.dev.host.held = [c] → c.opcode = 0x0810 → c.relayed = false → (seatOf s.dev.host c.seat).discard = false →
    Ends (.relayRsp w ws) s fun t =>
      t.dev.host.held = [] ∧ Answered c 0 t.dev ∧ t.dev.pair.relayed = s.dev.pair.relayed + 1 ∧
      (seatOf t.dev.host c.seat).rspBuf = mwriteBytes (seatOf s.dev.host c.seat).rspBuf 0 (responseBytes c 0 ws) ∧
      Changes [.pair, .host] s t) ∧
  (∀ (s : State) (x : Seat) (d : Dev), Passes (.seat x) (aRun 0xC48) s d → (x = .manager ∨ x = .board) → detachRefused d = false →
    Leaves (.pairCtrlDetach (.seat x)) s { d with pair := { d.pair with
      detaching := true, outbox := d.pair.outbox ++ [[word [(56, 8, 6), (50, 6, d.fuse.modid.toNat)]]] } }) ∧
  (∀ (s : State) (x : Seat) (d : Dev), Passes (.seat x) (aRun 0xC48) s d → (x = .manager ∨ x = .board) → detachRefused d = true →
    Ends (.pairCtrlDetach (.seat x)) s fun t =>
      t.dev.pair.reason = 0x0814 ∧ t.dev.pair.detaching = d.pair.detaching ∧ Changes [.pair, .host, .keep, .free] { s with dev := d } t) ∧
  (∀ (s : State) (x : Seat) (c : Cmd) (rest : List Cmd), Turn s x 0x0811 c rest → c.relayed = false →
    (seatOf s.dev.host x).discard = false → detachRefused s.dev = false →
    Ends (.detach x) s fun t => t.dev.pair.detaching = true ∧ Answered c 0 t.dev ∧ Changes [.pair, .host] s t) ∧
  (∀ (s : State) (w : W64), lanesRun s.dev 1024 = true → pairUp s.dev = true → fld w 63 56 = 6 → s.dev.host.held = [] →
    Leaves (.detachMsg w) s { s.dev with pair := { s.dev.pair with
      twinDetached := true, hbRow := 0, rspBuf := [], inTransfer := none, mirrorQueued := false
      outSlot := s.dev.pair.outSlot ^^ s.dev.pair.mirrorQueued
      absorbed := s.dev.pair.absorbed + w64 (s.dev.pair.outbox.filter forTwin).length
      outbox := s.dev.pair.outbox.filter (!forTwin ·) ++ [[word [(56, 8, 7), (50, 6, s.dev.fuse.modid.toNat)]]] } }) ∧
  (∀ (s : State) (w : W64), lanesRun s.dev 1024 = true → s.dev.pair.detaching = true →
    (lanesRun s.dev 1024 = true → pairUp s.dev = true → fld w 63 56 = 7 → Ends (.detachAck w) s fun t =>
      t.dev.pair.detached = true ∧ t.dev.pair.detaching = false ∧ t.dev.tio.highZ = true ∧ t.dev.pins.lanesIdle = true ∧
      Changes [.tio, .lanes, .links, .pair, .pins] s t) ∧
    (Ends .detachTimeout s fun t =>
      t.dev.pair.detached = true ∧ t.dev.pair.detaching = false ∧ t.dev.tio.highZ = true ∧ t.dev.pins.lanesIdle = true ∧
      Changes [.tio, .lanes, .links, .pair, .pins] s t)) ∧
  (∀ (s : State), s.dev.pair.detaching = false → Leaves .detachTimeout s s.dev) ∧
  (∀ (s : State) (k : Ckpt), lanesRun s.dev 1024 = true → s.dev.pair.inTransfer = some k → s.dev.pair.twinDetached = true →
    Ends .mirrorSend s fun t => t.dev.pair.inTransfer = none ∧ t.dev.pair.outbox = s.dev.pair.outbox ∧
      Changes [.pair, .free] s t) ∧
  (∀ (s : State) (x : Seat) (c : Cmd) (rest : List Cmd), Turn s x 0x0810 c rest → c.relayed = false →
    (seatOf s.dev.host x).discard = false → fld (c.par 1) 1 0 = seatNo x → s.dev.pair.twinDetached = true →
    Ends (.relay x) s fun t => Answered c 0x0812 t.dev ∧ t.dev.pair.reason = 0x0812 ∧
      t.dev.pair.absorbed = s.dev.pair.absorbed + 1 ∧ t.dev.host.held = [] ∧ Changes [.pair, .host, .keep, .free] s t) ∧
  (∀ (s : State) (w : W64) (ws : List W64) (c : Cmd), lanesRun s.dev 1024 = true → pairUp s.dev = true → fld w 63 56 = 5 → fld w 47 32 = 0x0813 →
    s.dev.host.held = [c] → c.opcode = 0x0810 → c.relayed = false → (seatOf s.dev.host c.seat).discard = false →
    Ends (.relayRsp w ws) s fun t =>
      t.dev.host.held = [] ∧ Answered c 0x0813 t.dev ∧ t.dev.pair.reason = 0x0813 ∧ t.dev.pair.relayed = s.dev.pair.relayed ∧
      Changes [.pair, .host, .keep, .free] s t) ∧
  (∀ (s : State) (w : W64) (ws : List W64), lanesRun s.dev 1024 = true → pairUp s.dev = true → fld w 63 56 = 5 → fld w 47 32 = 0x0815 →
    Ends (.relayRsp w ws) s fun t =>
      t.dev.pair.reason = 0x0815 ∧ t.dev.pair.mirrorStopped = true ∧ t.dev.pair.inTransfer = none ∧
      (s.dev.pair.inTransfer.isSome = true → t.dev.pair.mirrorOut = s.dev.pair.mirrorOut ∧
        t.dev.pair.outbox = s.dev.pair.outbox.filter fun m => !isMirror m) ∧ Changes [.pair] s t) ∧
  (∀ (s : State) (lane : Fin 1032) (h : W64) (k : Ckpt), lanesRun s.dev lane = true → linkOfLane? s.dev lane = some 1024 → linkState s.dev 1024 = 3 →
    fld h 63 56 = 0xA2 → crcGood h [] = true → bit h 20 = false → s.dev.pair.inTransfer = some k → s.dev.pair.mirrorQueued = true →
    s.dev.pair.outbox.any isMirror = false →
    ((linkOf (updLink s.dev 1024 (takeAck h)) 1024).replay.any fun F => isMirror F.words) = false →
    Ends (.idle lane h) s fun t => t.dev.pair.mirrorOut = k.cycle ∧ t.dev.pair.inTransfer = none ∧ Changes [.links, .pair] s t) ∧
  (∀ (s : State) (w : W64) (ws : List W64), lanesRun s.dev 1024 = true → pairUp s.dev = true → fld w 63 56 = 4 → bit w 53 = false →
    Leaves (.relayCmd w ws) s { s.dev with pair := { s.dev.pair with
      relayBuf := if fld w 15 0 = 0 then ws else s.dev.pair.relayBuf ++ ws } }) ∧
  (∀ (s : State) (w : W64) (ws : List W64), lanesRun s.dev 1024 = true → pairUp s.dev = true → fld w 63 56 = 5 → fld w 47 32 = 0 → bit w 53 = false →
    Leaves (.relayRsp w ws) s { s.dev with pair := { s.dev.pair with
      rspBuf := if fld w 15 0 = 0 then ws else s.dev.pair.rspBuf ++ ws } }) ∧
  (∀ (s : State) (w : W64) (ws : List W64) (base size : Nat), lanesRun s.dev 1024 = true → pairUp s.dev = true → fld w 63 56 = 2 →
    mirrorRegion? s.dev = some (base, size) → s.dev.pair.arrived = [] →
    engineStalled 0x40A (hbmDie (base + b2n (bit w 48) * (size / 2) + fld w 39 0)) s.dev = true →
    Leaves (.mirrorData w ws) s { s.dev with pair := { s.dev.pair with arrived := [w :: ws] } }) ∧
  (∀ (s : State) (w x : W64) (ws : List W64), lanesRun s.dev 1024 = false →
    Leaves .mirrorSend s s.dev ∧ Leaves (.mirrorData w ws) s s.dev ∧ Leaves (.mirrorDone w x) s s.dev ∧ Leaves (.relayCmd w ws) s s.dev ∧
    Leaves (.relayRsp w ws) s s.dev ∧ Leaves (.detachMsg w) s s.dev ∧ Leaves (.detachAck w) s s.dev ∧ Leaves .detachTimeout s s.dev)

/-- R290 to R293, R296, R298, R300, R306 to R308: the host ports. During a long operation a seat's writes are ignored, and a write without its
permission is denied, each counted. A PCIe reset ends the sessions of its port; an FLR ends its seat's. A DOORBELL in a
session joins the accepted commands, or is refused while the seat's mailbox is busy. The indirect access, BAR2 and a
register write reach the service network and show its answer. The manager seat sets protection.
What follows the model's choices: log entries 49, 60, 63, 70, 72, 74, 99, 100. -/
def Obligations.HostPorts : Prop :=
  (∀ (s : State) (x : Seat) (a : Nat), s.dev.run.st ≠ .boot → s.dev.clk.pw ≠ 4 → nocOn s.dev.clk = true → keepOn s.dev.clk = true →
    longOp s.dev = true →
    gate (.seat x) true (askAt true a) s.dev = (16, refuseSeat x (takeUp x s.dev))) ∧
  (∀ (s : State) (x : Seat) (a p : Nat), Judged s → x ≠ .manager →
    p ∈ (askAt true a).perms → bit (seatOf s.dev.host x).prot p = false →
    gate (.seat x) true (askAt true a) s.dev = (17, denySeat x (takeUp x s.dev))) ∧
  (∀ (s : State),
    Ends (.pcieReset .a) s fun t =>
      t.dev.host.upA = false ∧ t.dev.host.crsA = true ∧ t.dev.host.upB = s.dev.host.upB ∧ t.dev.host.crsB = s.dev.host.crsB ∧
      (∀ x : Seat, x ≠ .board → (seatOf s.dev.host x).session = true → (seatOf s.dev.host x).port = .a →
        seatOf t.dev.host x = { seatOf s.dev.host x with session := false, version := 0 }) ∧
      (∀ x : Seat, (x = .board ∨ (seatOf s.dev.host x).session = false ∨ (seatOf s.dev.host x).port ≠ .a) →
        seatOf t.dev.host x = seatOf s.dev.host x) ∧ Changes [.host] s t) ∧
  (∀ (s : State),
    Ends (.pcieReset .b) s fun t =>
      t.dev.host.upB = false ∧ t.dev.host.crsB = true ∧ t.dev.host.upA = s.dev.host.upA ∧ t.dev.host.crsA = s.dev.host.crsA ∧
      (∀ x : Seat, x ≠ .board → (seatOf s.dev.host x).session = true → (seatOf s.dev.host x).port = .b →
        seatOf t.dev.host x = { seatOf s.dev.host x with session := false, version := 0 }) ∧
      (∀ x : Seat, (x = .board ∨ (seatOf s.dev.host x).session = false ∨ (seatOf s.dev.host x).port ≠ .b) →
        seatOf t.dev.host x = seatOf s.dev.host x) ∧ Changes [.host] s t) ∧
  (∀ (s : State) (port : Port) (pf : Fin 3) (x : Seat), seatOfNo pf = x → (seatOf s.dev.host x).session = true →
    (seatOf s.dev.host x).port = port →
    Ends (.flr port pf) s fun t =>
      let S := seatOf t.dev.host x
      S.session = false ∧ S.lastReason = 0 ∧ S.lastTag = 0 ∧ S.done = false ∧ S.exec = false ∧ S.doorbellRefused = false ∧
      S.snErr = false ∧ S.ring = (seatOf s.dev.host x).ring ∧
      (longOp s.dev = true → s.dev.host.longKind ≠ 3 → s.dev.host.longSeat = x → longRelayed s.dev = false → S.discard = true) ∧
      (longRelayed s.dev = true → S.discard = (seatOf s.dev.host x).discard) ∧
      (∀ y, y ≠ x → seatOf t.dev.host y = seatOf s.dev.host y) ∧ t.dev.host.order = s.dev.host.order ∧ Changes [.host] s t) ∧
  (∀ (s : State) (port : Port) (pf : Fin 3), (seatOf s.dev.host (seatOfNo pf)).session = true →
    (seatOf s.dev.host (seatOfNo pf)).port ≠ port → Leaves (.flr port pf) s s.dev) ∧
  (∀ (s : State), s.dev.clk.wakeEn.getLsbD 3 = false →
    Leaves (.pcieLinkUp .a) s { s.dev with host := { s.dev.host with upA := true } } ∧
    Leaves (.pcieLinkUp .b) s { s.dev with host := { s.dev.host with upB := true } }) ∧
  (∀ (s : State), s.dev.run.st ≠ .boot →
    Leaves (.pciePortReady .a) s { s.dev with host := { s.dev.host with crsA := false } } ∧
    Leaves (.pciePortReady .b) s { s.dev with host := { s.dev.host with crsB := false } }) ∧
  (∀ (s : State) (x : Seat) (port : Port), s.dev.run.st ≠ .boot → s.dev.clk.frozen = false → portOfSeat x port = true → longOp s.dev = false →
    (seatOf s.dev.host x).ring = false → WakesNothing s.dev 0 →
    (seatOf s.dev.host x).session = true → (seatOf s.dev.host x).port = port →
    let S := seatOf s.dev.host x
    let c := parseCmd x false (cmdForm S) S.cmdBuf S.prot port
    c.opcode ≠ 0x0101 → catalogCheck (takeUp x s.dev) c S.version = 0 →
    Ends (.doorbell x port) s fun t =>
      t.dev.host.order = s.dev.host.order ++ [c] ∧ (seatOf t.dev.host x).ring = true ∧
      (longOp t.dev = true ↔ ∃ r, opRow? c.opcode = some r ∧ r.long ≠ 0) ∧ Changes [.host] s t) ∧
  (∀ (s : State) (x : Seat) (port : Port), s.dev.run.st ≠ .boot → s.dev.clk.frozen = false → portOfSeat x port = true →
    (longOp s.dev = true ∨ (seatOf s.dev.host x).ring = true) →
    Leaves (.doorbell x port) s
      (wakeBy 0 (logOpen (updSeat s.dev x fun S => { S with refused := S.refused + 1, doorbellRefused := true })))) ∧
  (∀ (s : State) (x : Seat) (port : Port), s.dev.run.st ≠ .boot → s.dev.clk.frozen = false → portOfSeat x port = true → longOp s.dev = false →
    (seatOf s.dev.host x).ring = false →
    Leaves (.doorbell x port) s (wakeBy 0 (acceptSeat x port (takeUp x s.dev)))) ∧
  (∀ (s : State) (x y : Seat) (c c' : Cmd) (rest : List Cmd), s.dev.host.order = c :: c' :: rest → c.refused ≠ 0 → c.seat = y →
    c.relayed = false → c.opcode ≠ 0x0201 → c.opcode ≠ 0x0202 → c.opcode ≠ 0x0401 → (seatOf s.dev.host y).discard = false →
    foviaFree s.dev = true → x ≠ y → c'.seat = x → c'.opcode = 0x0102 → c'.refused = 0 →
    Ends (.goodbye x) s fun t => Answered c c.refused t.dev ∧ t.dev.host.order = rest) ∧
  (∀ (s : State) (x : Seat) (port : Port), s.dev.run.st ≠ .boot → s.dev.clk.frozen = false → portOfSeat x port = true → longOp s.dev = false →
    (seatOf s.dev.host x).ring = false → WakesNothing s.dev 0 →
    (seatOf s.dev.host x).session = false →
    let S := seatOf s.dev.host x
    let c := parseCmd x false (cmdForm S) S.cmdBuf S.prot port
    c.opcode ≠ 0x0101 →
    Ends (.doorbell x port) s fun t => t.dev.host.order = s.dev.host.order ++ [{ c with refused := 0x0101 }] ∧
      (seatOf t.dev.host x).ring = true ∧ Changes [.host] s t) ∧
  (∀ (s : State) (x : Seat) (port : Port) (v : W64) (env : PinEnv), (s.dev.clk.pw ≠ 4 ∨ x = .board) → snOpen x s.dev = true → rightPort s.dev x port = true →
    (seatOf s.dev.host x).snGo = false →
    let v := v ||| 1
    let d := updSeat (takeUp x s.dev) x fun S => { S with snWrite := bit v 1, snGo := true }
    let r := snAccess (.snCtrl x) x (seatOf s.dev.host x).snAddr.toNat
      (if bit v 1 then .write (seatOf s.dev.host x).snData 255 else .read) env s.irq d
    LeavesIrq (.snCtrlGo x port v env) s r.irq (if r.dev.clk.stage < s.dev.clk.stage ∨ 19 ≤ r.status then r.dev
      else updSeat r.dev x fun S => if S.snGo then
        { S with snErr := decide (r.status ≠ 0), snData := if r.status = 0 ∧ !bit v 1 then r.data else S.snData, snGo := false }
      else S)) ∧
  (∀ (s : State) (port : Port) (off : Nat) (env : PinEnv), off % 8 = 0 → off < 2 ^ 32 → noAccess s.dev = false →
    rightPort s.dev .manager port = true →
    let r := snAccess (.bar2 8) .manager (s.dev.host.manager.bar2Base * 2 ^ 32 + off) .read env s.irq s.dev
    s.dev.clk.stage ≤ r.dev.clk.stage → r.status = 0 →
    LeavesIrq (.bar2Access port off 8 .read env) s r.irq { r.dev with host := { r.dev.host with answer :=
      { Answer.reset with data := r.data } } }) ∧
  (∀ (s : State) (port : Port) (off : Nat) (v : W64) (env : PinEnv), off % 8 = 0 → off < 2 ^ 32 → noAccess s.dev = false →
    rightPort s.dev .manager port = true →
    let r := snAccess (.bar2 8) .manager (s.dev.host.manager.bar2Base * 2 ^ 32 + off) (.write v 255) env s.irq s.dev
    s.dev.clk.stage ≤ r.dev.clk.stage → r.status = 0 →
    LeavesIrq (.bar2Access port off 8 (.write v) env) s r.irq { r.dev with host := { r.dev.host with answer := Answer.reset } }) ∧
  (∀ (s : State) (x : Seat) (port : Port) (a : Nat) (v : W64), 0x2000 ≤ a → noAccess s.dev = false → rightPort s.dev x port = true →
    a < 2 ^ 40 → a % 8 = 0 →
    let r := snAccess (.posted (.seat x)) x a (.write v 255) PinEnv.none s.irq s.dev
    LeavesIrq (.registerWrite x port a v) s r.irq r.dev) ∧
  (∀ (s : State) (x : Seat) (port : Port) (a : Nat) (v : W64), 0x400 ≤ a → a < 0xC00 → a % 8 = 0 → noAccess s.dev = false →
    longOp s.dev = false → portOfSeat x port = true →
    Leaves (.registerWrite x port a v) s (updSeat (takeUp x s.dev) x fun S =>
      { S with cmdBuf := mwrite S.cmdBuf (a - 0x400) 8 v.toNat })) ∧
  (∀ (s : State) (target : Fin 4) (v : W64), noAccess s.dev = false → target.val ≠ 0 →
    Ends (.protSeatWrite .manager target v) s fun t =>
      (seatOf t.dev.host (seatOfNo target)).prot = v &&& 0xFFF0_0000_FFFF_FFFF ∧
      (seatOf t.dev.host (seatOfNo target)).protUse = (seatOf s.dev.host (seatOfNo target)).protUse ∧
      t.dev.host.protGen = (s.dev.host.protGen + 1) % 2 ^ 32 ∧ Changes [.host] s t) ∧
  (∀ (s : State) (x : Seat) (target : Fin 4) (v : W64), noAccess s.dev = false → x ≠ .manager →
    Leaves (.protSeatWrite x target v) s (if longOp s.dev then refuseSeat x (takeUp x s.dev) else takeUp x s.dev)) ∧
  (∀ (s : State), nocOn s.dev.clk = true →
    Ends .mirrorRefresh s fun t => t.dev.host.mirrorSeq = s.dev.host.mirrorSeq + 2 ∧
      (mirrorState s.dev ≠ 0 → mirrorWord t.dev 1 = mirrorState s.dev) ∧
      (s.dev.run.committed % 2 ^ 64 ≠ 0 → mirrorWord t.dev 2 = w64 s.dev.run.committed) ∧ Changes [.host] s t) ∧
  (∀ (s : State) (x : Seat) (a : Nat), Judged s → (askAt true a).seats.contains x = false →
    gate (.seat x) true (askAt true a) s.dev = (17, denySeat x (takeUp x s.dev))) ∧
  (∀ (s : State) (x : Seat) (port : Port) (a : Nat) (v : W64), (a < 2 ^ 40 ∧ a % 8 ≠ 0) ∨ (2 ^ 40 ≤ a ∧ a % 4 ≠ 0) →
    Leaves (.registerWrite x port a v) s (showBar2 true 18 0 s.dev)) ∧
  (∀ (s : State) (x : Seat) (port : Port) (a : Nat) (v : W64), s.dev.clk.pw = 4 → port ≠ .psp → a ≠ 0x10 → a ≠ 2 ^ 40 + 0x10 →
    Leaves (.registerWrite x port a v) s (showBar2 true 18 0 s.dev)) ∧
  (∀ (s : State) (x : Seat) (port : Port) (a : Nat) (v : W64), 0x400 ≤ a → a < 0xC00 → a % 8 = 0 → noAccess s.dev = false →
    longOp s.dev = false → portOfSeat x port = true →
    Leaves (.registerWrite x port (2 ^ 40 + a) v) s (updSeat (takeUp x s.dev) x fun S =>
      { S with cmdBuf := mwrite S.cmdBuf (a - 0x400) 8 (maskW 0xFFFF_FFFF (w64 (mread S.cmdBuf (a - 0x400) 8)) v).toNat })) ∧
  (∀ (s : State) (x : Seat) (port : Port) (a : Nat) (v : W64), 0x400 ≤ a → a < 0xC00 → a % 8 = 4 → noAccess s.dev = false →
    longOp s.dev = false → portOfSeat x port = true →
    Leaves (.registerWrite x port (2 ^ 40 + a) v) s (updSeat (takeUp x s.dev) x fun S =>
      { S with cmdBuf := mwrite S.cmdBuf (a - 4 - 0x400) 8 (maskW 0xFFFF_FFFF_0000_0000
        (w64 (mread S.cmdBuf (a - 4 - 0x400) 8)) (v <<< 32)).toNat })) ∧
  (∀ (s : State) (x : Seat) (port : Port) (off : Nat), (off = 0x10 ∨ off = 0x28) → noAccess s.dev = false → longOp s.dev = true →
    portOfSeat x port = true → (rightPort s.dev x port = false ∨ off = 0x10 ∨ s.dev.host.longSeat ≠ x) →
    Leaves (.registerWrite x port off 0) s (refuseSeat x s.dev)) ∧
  (∀ (f : Fuse) (pf : Fin 3), let c := configIds pf f
    c.vendor = 0x1F3C ∧ c.classCode = 0x12_0000 ∧ c.device = 0x5240 + pf ∧ c.revision = fld (moduleId f) 11 8 ∧
    c.subVendor = 0x1F3C ∧ c.subSystem = f.modid.toNat) ∧
  (∀ (s : State) (x : Seat) (port : Port) (v : W64) (env : PinEnv), (s.dev.clk.pw ≠ 4 ∨ x = .board) → snOpen x s.dev = true → rightPort s.dev x port = true →
    (seatOf s.dev.host x).snGo = true →
    Leaves (.snCtrlGo x port v env) s (updSeat (takeUp x s.dev) x fun S => { S with snWrite := bit (v ||| 1) 1 })) ∧
  (∀ (s : State) (x : Seat) (port : Port) (v : W64) (env : PinEnv), s.dev.clk.pw = 4 → x ≠ .board →
    Leaves (.snCtrlGo x port v env) s (showBar2 true 18 0 s.dev)) ∧
  (∀ (s : State) (port : Port) (off : Nat) (env : PinEnv) (d : Dev), off % 8 = 0 → off < 2 ^ 32 → noAccess s.dev = false →
    rightPort s.dev .manager port = true →
    let a := s.dev.host.manager.bar2Base * 2 ^ 32 + off
    judge (.seat .manager) false (askAt false a) s.dev = (0, d) → (askAt false a).decoded = true →
    (accessWaits (.seat .manager) false (askAt false a) d = true →
      Leaves (.bar2Access port off 8 .read env) s
        { d with sn := { d.sn with held := d.sn.held ++ [⟨.bar2 8, .seat .manager, a, none, env, d.sn.waiting.length⟩] } }) ∧
    (∀ n d', accessWaits (.seat .manager) false (askAt false a) d = false → reachNode (.seat .manager) false (askAt false a) d = (n, d') → 0 < n → n < 16 →
      Leaves (.bar2Access port off 8 .read env) s { d' with host := { d'.host with answer :=
        { Answer.reset with status := n, abort := true } } })) ∧
  (∀ (s : State) (port : Port) (off size : Nat) (acc : Access) (env : PinEnv), bar2Ok off size = false →
    Leaves (.bar2Access port off size acc env) s (showBar2 (isWrite acc) 18 0 s.dev)) ∧
  (∀ (s : State) (m : Master) (write : Bool) (a : Ask), s.dev.clk.pw ≠ 4 → nocOn s.dev.clk = false →
    gate m write a s.dev = (19, s.dev))

/-- R299, R302, R304, R306, R309 to R311, R358: the mailbox commands of sessions, registers, dumps, power, diagnostics and the Keep store,
each with its REASON and the state that it leaves.
R304: an aborted DUMP answers ABORTED with a whole number of 4 KiB units. R311: SELFTEST needs IDLE.
What follows the model's choices: log entries 6, 50, 51, 62, 68, 69, 71, 79, 99. -/
def Obligations.HostCommands : Prop :=
  (∀ (s : State) (x : Seat) (c : Cmd) (rest : List Cmd) (v : Nat), Turn s x 0x0101 c rest → c.relayed = false →
    (seatOf s.dev.host x).discard = false → chooseVersion c.v1 (c.par 1) = some v →
    Ends (.hello x) s fun t =>
      let S := seatOf t.dev.host x
      S.session = true ∧ S.version = v ∧ S.port = (if x = .board then .psp else c.port) ∧ Answered c 0 t.dev ∧
      S.rspBuf = mwriteBytes (seatOf s.dev.host x).rspBuf 0 (responseBytes c 0
        [word [(32, 32, (moduleId s.dev.fuse).toNat), (16, 8, seatNo x), (0, 16, v)],
         word [(48, 2, b2n s.dev.clk.slot), (0, 32, runningVersion s.dev)]]) ∧ Changes [.host] s t) ∧
  (∀ (s : State) (x : Seat) (c : Cmd) (rest : List Cmd), Turn s x 0x0101 c rest → c.relayed = false →
    (seatOf s.dev.host x).discard = false → chooseVersion c.v1 (c.par 1) = none →
    Ends (.hello x) s fun t => Answered c 0x0104 t.dev ∧ (seatOf t.dev.host x).session = (seatOf s.dev.host x).session ∧
      Changes [.host, .keep, .free] s t) ∧
  (∀ (s : State) (x : Seat) (c : Cmd) (rest : List Cmd), Turn s x 0x0102 c rest → c.relayed = false →
    (seatOf s.dev.host x).discard = false →
    Ends (.goodbye x) s fun t => (seatOf t.dev.host x).session = false ∧ (seatOf t.dev.host x).version = 0 ∧ Answered c 0 t.dev ∧
      Changes [.host] s t) ∧
  (∀ (s : State) (x : Seat) (c : Cmd) (rest : List Cmd), Turn s x 0x0110 c rest → (c.par 1).toNat < 2 ^ 40 →
    cmdMay c (askAt false (c.par 1).toNat) (taken c rest s.dev) = true →
    let r := goAccess (.cmd c) (.seat x) (c.par 1).toNat .read PinEnv.none s.irq (taken c rest s.dev)
    LeavesIrq (.regRead x) s r.irq (
      if r.dev.clk.stage < s.dev.clk.stage then r.dev
      else if 19 ≤ r.status then (if r.dev.host.held.contains c then r.dev else holdCmd c r.dev)
      else if r.status = 0 then respond c 0 [r.data] { r.dev with host := { r.dev.host with held := r.dev.host.held.erase c } }
      else if r.status = 17 then respond c 0x0103 [] { r.dev with host := { r.dev.host with held := r.dev.host.held.erase c } }
      else if r.status = 1 then putResponse c 0x0106 [1] { r.dev with host := { r.dev.host with held := r.dev.host.held.erase c } }
      else respond c 0x0106 [w64 r.status] { r.dev with host := { r.dev.host with held := r.dev.host.held.erase c } })) ∧
  (∀ (s : State) (x : Seat) (c : Cmd) (rest : List Cmd), Turn s x 0x0110 c rest → (c.par 1).toNat < 2 ^ 40 →
    cmdMay c (askAt false (c.par 1).toNat) (taken c rest s.dev) = false →
    Leaves (.regRead x) s (respond c 0x0103 [] (denySeat x (taken c rest s.dev)))) ∧
  (∀ (s : State) (x : Seat) (env : PinEnv) (c : Cmd) (rest : List Cmd), Turn s x 0x0111 c rest → (c.par 1).toNat < 2 ^ 40 →
    cmdMay c (askAt true (c.par 1).toNat) (taken c rest s.dev) = true →
    let r := goAccess (.cmd c) (.seat x) (c.par 1).toNat (.write (c.par 2) 255) env s.irq (taken c rest s.dev)
    LeavesIrq (.regWrite x env) s r.irq (
      if r.dev.clk.stage < s.dev.clk.stage then r.dev
      else if 19 ≤ r.status then (if r.dev.host.held.contains c then r.dev else holdCmd c r.dev)
      else if r.status = 0 then respond c 0 [] { r.dev with host := { r.dev.host with held := r.dev.host.held.erase c } }
      else if r.status = 17 then respond c 0x0103 [] { r.dev with host := { r.dev.host with held := r.dev.host.held.erase c } }
      else if r.status = 1 then putResponse c 0x0106 [1] { r.dev with host := { r.dev.host with held := r.dev.host.held.erase c } }
      else respond c 0x0106 [w64 r.status] { r.dev with host := { r.dev.host with held := r.dev.host.held.erase c } })) ∧
  (∀ (s : State) (x : Seat) (c : Cmd) (rest : List Cmd), Turn s x 0x0310 c rest → dumpCode c s.dev = 0 →
    Ends (.dump x) s fun t => t.dev.host.longKind = 5 ∧ t.dev.host.longCmd = some c ∧ t.dev.host.longSeat = x ∧
      t.dev.host.dumpBytes = 0 ∧ t.dev.host.dumpAbort = false ∧ Changes [.host] s t) ∧
  (∀ (s : State) (x : Seat) (c : Cmd) (rest : List Cmd), Turn s x 0x0310 c rest → c.relayed = false →
    (seatOf s.dev.host x).discard = false → dumpCode c s.dev ≠ 0 →
    Ends (.dump x) s fun t => t.dev.host.longKind = restKind s.dev ∧ Answered c (dumpCode c s.dev) t.dev ∧ Changes [.host, .keep, .free] s t) ∧
  (∀ (s : State) (c : Cmd), s.dev.host.longKind = 5 → s.dev.host.longCmd = some c → s.dev.host.dumpAbort = false →
    c.relayed = false → (seatOf s.dev.host c.seat).discard = false →
    Ends .dumpComplete s fun t =>
      t.dev.host.longKind = restKind s.dev ∧ t.dev.host.longCmd = none ∧ Answered c 0 t.dev ∧
      (∃ h : List W64, h.length = 4 ∧
        let body := dumpBody (bit (c.par 1) 0) (bit (c.par 1) 1) s.dev
        let ws := [w64 s.dev.fuse.modid.toNat, s.dev.ld.buildId, w64 s.dev.run.committed, w64 (64 + 8 * body.length)] ++ h ++ body
        let r := dmaWrite c.port (c.par 2).toNat ws s.dev
        t.dev.host.dmaA = r.host.dmaA ∧ t.dev.host.dmaB = r.host.dmaB ∧ t.dev.host.dumpBytes = 8 * ws.length) ∧
      Changes [.host, .free] s t) ∧
  (∀ (s : State) (x : Seat) (c : Cmd) (rest : List Cmd), Turn s x 0x0902 c rest → c.relayed = false →
    (seatOf s.dev.host x).discard = false → (fld (c.par 1) 1 0 = 1 ∨ fld (c.par 1) 1 0 = 2) → jtagTest s.dev = false →
    powerCode (fld (c.par 1) 1 0) s.dev = 0 →
    Ends (.powerState x) s fun t => t.dev.clk.pwRequested = true ∧ t.dev.clk.pwTarget = fld (c.par 1) 1 0 ∧ t.dev.clk.pwReason = 0 ∧
      t.dev.host.held = [c] ∧ (seatOf t.dev.host x).exec = true ∧ Changes [.host, .clk] s t) ∧
  (∀ (s : State) (x : Seat) (c : Cmd) (rest : List Cmd), Turn s x 0x0A01 c rest → c.relayed = false →
    (seatOf s.dev.host x).discard = false → 1 ≤ (c.par 2).toNat → (c.par 2).toNat ≤ 63 →
    let o := s.dev.keep.logNext - s.dev.keep.log.length
    Ends (.logRead x) s fun t => Answered c 0 t.dev ∧
      (seatOf t.dev.host x).rspBuf = mwriteBytes (seatOf s.dev.host x).rspBuf 0 (responseBytes c 0
        (w64 o :: ((s.dev.keep.log.drop (max (c.par 1).toNat o - o)).take (c.par 2).toNat).flatten)) ∧ Changes [.host] s t) ∧
  (∀ (s : State) (x : Seat) (c : Cmd) (rest : List Cmd), Turn s x 0x0A02 c rest → s.dev.run.st = .idle → jtagTest s.dev = false →
    4 ≤ s.dev.clk.stage →
    Ends (.selftest x) s fun t => t.dev.host.held = [c] ∧ t.dev.keep.selftest = some ((c.par 1).setWidth 4) ∧
      Changes [.host, .keep] s t) ∧
  (∀ (s : State) (failed mask : BitVec 4) (c : Cmd), s.dev.keep.selftest = some mask → s.dev.host.held = [c] → c.opcode = 0x0A02 →
    c.relayed = false → (seatOf s.dev.host c.seat).discard = false →
    Ends (.selftestComplete failed) s fun t => t.dev.keep.selftest = none ∧ t.dev.host.held = [] ∧
      Answered c (if failed &&& mask = 0 then 0 else 0x0A01) t.dev ∧ Changes [.host, .keep, .free] s t) ∧
  (∀ (s : State) (x : Seat) (c : Cmd) (rest : List Cmd), Turn s x 0x0A10 c rest →
    Leaves (.fwInfo x) s (respond c 0 [word [(62, 2, b2n s.dev.clk.slot), (0, 32, s.dev.keep.rollback)],
      word [(56, 8, s.dev.keep.stA), (0, 32, s.dev.keep.verA)], word [(56, 8, s.dev.keep.stB), (0, 32, s.dev.keep.verB)]]
      (taken c rest s.dev))) ∧
  (∀ (s : State) (x : Seat) (c : Cmd) (rest : List Cmd), Turn s x 0x0A11 c rest →
    let bytes := (bytesOfWords (c.params.drop 1)).take (c.length - 8)
    (c.par 1).toNat + bytes.length ≤ 2 ^ 24 →
    Leaves (.fwStage x) s (respond c 0 [] { taken c rest s.dev with
      keep := stageBytes (!s.dev.clk.slot) (c.par 1).toNat bytes s.dev.keep })) ∧
  (∀ (s : State) (x : Seat) (c : Cmd) (rest : List Cmd), Turn s x 0x0A12 c rest → slotState s.dev.keep (!s.dev.clk.slot) = 1 →
    let b := !s.dev.clk.slot
    let n := imageCode s.dev.keep b
    Leaves (.fwCommit x) s (respond c n [] { taken c rest s.dev with
      keep := if n = 0 then makePending b s.dev.keep else if n = 0x0A13 then s.dev.keep else setSlotState b 5 s.dev.keep })) ∧
  (∀ (s : State) (x : Seat) (c : Cmd) (rest : List Cmd), Turn s x 0x0A13 c rest → slotState s.dev.keep s.dev.clk.slot = 2 →
    Ends (.fwConfirm x) s fun t =>
      slotState t.dev.keep s.dev.clk.slot = 3 ∧ slotState t.dev.keep (!s.dev.clk.slot) = 4 ∧
      t.dev.keep.rollback = max s.dev.keep.rollback (if s.dev.clk.slot then s.dev.keep.rollB else s.dev.keep.rollA) ∧
      Changes [.host, .pair, .keep] s t) ∧
  (∀ (s : State) (x : Seat) (c : Cmd) (rest : List Cmd), Turn s x 0x0A20 c rest → s.dev.run.st ≠ .loading →
    let b := bytesOfWords (c.params.drop 1)
    let key := (natOfBE (b.take 48), natOfBE ((b.drop 48).take 48))
    onCurve key = true →
    Leaves (.keySet x) s (respond c 0 [] { taken c rest s.dev with
      keep := { s.dev.keep with keys := tset (0, 0) s.dev.keep.keys (fld (c.par 1) 1 0) key } })) ∧
  (∀ (s : State) (x : Seat) (c : Cmd) (rest : List Cmd), Turn s x 0x0A21 c rest → s.dev.run.st ≠ .loading →
    (bit (c.par 1) 0 = true → s.dev.keep.keys ≠ []) →
    Leaves (.policySet x) s (respond c 0 [] { taken c rest s.dev with
      keep := { s.dev.keep with required := bit (c.par 1) 0 } })) ∧
  (∀ (s : State) (x : Seat) (c : Cmd) (rest : List Cmd), Turn s x 0x0A21 c rest → c.relayed = false →
    (seatOf s.dev.host x).discard = false → s.dev.run.st ≠ .loading → bit (c.par 1) 0 = true → s.dev.keep.keys = [] →
    Ends (.policySet x) s fun t => Answered c 0x0A21 t.dev ∧ t.dev.keep.required = s.dev.keep.required ∧
      Changes [.host, .keep, .free] s t) ∧
  (∀ (s : State) (x : Seat) (c : Cmd) (rest : List Cmd), Turn s x 0x0110 c rest → 2 ^ 40 ≤ (c.par 1).toNat →
    Leaves (.regRead x) s (respond c 3 [] (taken c rest s.dev))) ∧
  (∀ (s : State) (x : Seat) (env : PinEnv) (c : Cmd) (rest : List Cmd), Turn s x 0x0111 c rest → 2 ^ 40 ≤ (c.par 1).toNat →
    Leaves (.regWrite x env) s (respond c 3 [] (taken c rest s.dev))) ∧
  (∀ (s : State) (x : Seat) (env : PinEnv) (c : Cmd) (rest : List Cmd), Turn s x 0x0111 c rest → (c.par 1).toNat < 2 ^ 40 →
    cmdMay c (askAt true (c.par 1).toNat) (taken c rest s.dev) = false →
    Leaves (.regWrite x env) s (respond c 0x0103 [] (denySeat x (taken c rest s.dev)))) ∧
  (∀ (s : State) (x : Seat) (c : Cmd) (rest : List Cmd), Turn s x 0x0902 c rest → c.relayed = false →
    (seatOf s.dev.host x).discard = false → (fld (c.par 1) 1 0 = 1 ∨ fld (c.par 1) 1 0 = 2) → jtagTest s.dev = false →
    powerCode (fld (c.par 1) 1 0) s.dev ≠ 0 →
    Ends (.powerState x) s fun t => t.dev.clk.pwRequested = s.dev.clk.pwRequested ∧
      t.dev.clk.pwReason = powerCode (fld (c.par 1) 1 0) s.dev ∧ Answered c (powerCode (fld (c.par 1) 1 0) s.dev) t.dev ∧
      Changes [.host, .keep, .clk, .free] s t) ∧
  (∀ (s : State) (c : Cmd), s.dev.host.longKind = 5 → s.dev.host.longCmd = some c → s.dev.host.dumpAbort = true →
    c.relayed = false → (seatOf s.dev.host c.seat).discard = false →
    Ends .dumpComplete s fun t =>
      t.dev.host.longKind = restKind s.dev ∧ t.dev.host.longCmd = none ∧ Answered c 5 t.dev ∧ t.dev.host.dumpBytes % 4096 = 0 ∧
      t.dev.host.dumpAbort = s.dev.host.dumpAbort ∧ Changes [.host, .keep, .free] s t) ∧
  (∀ (s : State) (x : Seat) (c : Cmd) (rest : List Cmd), Turn s x 0x0A02 c rest → c.relayed = false →
    (seatOf s.dev.host x).discard = false → (s.dev.run.st ≠ .idle ∨ jtagTest s.dev = true) →
    Ends (.selftest x) s fun t => Answered c 4 t.dev ∧ t.dev.keep.selftest = s.dev.keep.selftest ∧
      t.dev.host.held = s.dev.host.held ∧ Changes [.pair, .host, .keep, .free] s t)

/-- R318 to R324, R327: the service network. A request that must wait waits; one that its routes carry is performed at its target and
its response is owed; one that a dead target or a sleeping domain stands in the way of is answered by the router. A
response gives the initiator its STATUS and data. A silent node is declared dead, revived on demand; domains go off and wake;
routes are written to the shadow bank, and the banks swap roles. What stays inside a domain is never absorbed; a lost response keeps its room.
What follows the model's choices: log entries 8, 57, 100. -/
def Obligations.ServiceNetwork : Prop :=
  (∀ (s : State) (p : Packet) (env : PinEnv), p.kind = 4 →
    let q := formPacket p s.dev
    mustWait s.dev q = false → Leaves (.snRequest p env) s (sendEvent q s.dev)) ∧
  (∀ (s : State) (p : Packet) (env : PinEnv), (p.kind ≤ 2 ∨ p.kind = 4) → mustWait s.dev (formPacket p s.dev) = true →
    Leaves (.snRequest p env) s { s.dev with sn := { s.dev.sn with waiting := s.dev.sn.waiting ++ [(formPacket p s.dev, env)] } }) ∧
  (∀ (s : State) (p : Packet) (env : PinEnv) (m : Master) (d d' : Dev), p.kind ≤ 2 →
    let q := formPacket p s.dev
    let a := askAt (q.kind ≠ 0) q.addr
    mustWait s.dev q = false → classMaster q.cls = some m → judge m (q.kind ≠ 0) a s.dev = (0, d) →
    travel q a.decoded a.domain d = (0, d') →
    let i := if q.dst = irqNode then flushNode q.src s.irq d' else (s.irq, d')
    let r := accessWords m q.addr env (if q.lenM1 = 0 then q.be.toNat else 255) (wordOps q) ⟨0, 0, i.1, i.2⟩
    let e := if r.1.dev.clk.stage < i.2.clk.stage then r.1.dev else logError r.1.status (countPacket i.2 r.1.dev)
    LeavesIrq (.snRequest p env) s r.1.irq (if r.1.dev.clk.stage < i.2.clk.stage ∨ 1 < q.kind then e else
      { e with sn := { e.sn with owed := e.sn.owed ++ [{ q with status := r.1.status, data := if q.kind = 0 then r.2 else [] }] } })) ∧
  (∀ (s : State) (node tag : Nat) (p : Packet), nocOn s.dev.clk = true → (s.dev.sn.owed.find? fun p => p.dst = node && p.tag = tag) = some p →
    arrives s.dev.sn node p.src p.epoch = true → NothingWaits s.dev → domainState s.dev (nodeDomain p.src) ≠ 2 →
    Ends (.snResponse node tag) s fun t =>
      t.dev.sn.owed = s.dev.sn.owed.erase p ∧
      t.dev.host.answer.status = min p.status 15 ∧ t.dev.host.answer.data = p.data.headD 0 ∧
      (∀ x : Seat, classMaster p.cls = some (.seat x) → p.status ≠ 0 → (x ≠ .manager ∨ (seatOf s.dev.host x).snGo = true) →
        (seatOf t.dev.host x).snErr = true) ∧
      (classMaster p.cls = some (.seat .manager) → p.status ≠ 0 → p.kind = 0 → s.dev.host.manager.snGo = false →
        t.dev.host.answer.abort = true) ∧ Changes [.host, .sn, .trc] s t) ∧
  (∀ (s : State) (node tag : Nat) (p : Packet), nocOn s.dev.clk = true → (s.dev.sn.owed.find? fun p => p.dst = node && p.tag = tag) = none →
    (s.dev.sn.late.find? fun p => p.dst = node && p.tag = tag) = some p →
    Ends (.snResponse node tag) s fun t => t.dev.sn.late = s.dev.sn.late.erase p ∧ t.dev.sn.lateResp = s.dev.sn.lateResp + 1 ∧
      t.dev.sn.owed = s.dev.sn.owed ∧ Changes [.sn, .trc] s t) ∧
  (∀ (s : State) (node tag : Nat) (p : Packet), nocOn s.dev.clk = true → (s.dev.sn.owed.find? fun p => p.dst = node && p.tag = tag) = some p →
    arrives s.dev.sn node p.src p.epoch = false →
    Ends (.snResponse node tag) s fun t => t.dev.sn.owed = s.dev.sn.owed.erase p ∧ t.dev.sn.lost = s.dev.sn.lost ++ [p] ∧
      Changes [.sn, .trc] s t) ∧
  (∀ (s : State) (node : Fin 2048), (s.dev.sn.owed.filter fun p => p.dst = node.val) ≠ [] → NothingWaits s.dev →
    Ends (.deadTarget node) s fun t =>
      isDead t.dev node = true ∧ t.dev.sn.owed = (s.dev.sn.owed.filter fun p => p.dst ≠ node.val) ∧
      t.dev.sn.late = s.dev.sn.late ++ (s.dev.sn.owed.filter fun p => p.dst = node.val) ∧
      Changes [.host, .sn, .trc] s t) ∧
  (∀ (s : State) (node : Fin 2048), (s.dev.sn.owed.filter fun p => p.dst = node.val) = [] → Leaves (.deadTarget node) s s.dev) ∧
  (∀ (s : State) (w : Fin 32) (v : W64) (d : Dev), Passes (.seat .manager) (aSn (0x100 + 8 * w)) s d →
    Leaves (.snDeadWrite (.seat .manager) w v) s { d with sn := { d.sn with revive :=
      ((bitsOf 64 (tget 0 d.sn.dead w &&& v).toNat).map (64 * w.val + ·)).foldl (fun l n => insertNat n l) d.sn.revive } }) ∧
  (∀ (s : State) (node : Fin 2048), node.val ∈ s.dev.sn.revive →
    Leaves (.revival node) s { s.dev with sn := { s.dev.sn with
      revive := s.dev.sn.revive.erase node.val, late := s.dev.sn.late.filter (·.dst ≠ node.val)
      dead := tset 0 s.dev.sn.dead (node.val / 64) (setBit (tget 0 s.dev.sn.dead (node.val / 64)) (node.val % 64) false) } }) ∧
  (∀ (s : State) (dom : Fin 16), domainState s.dev dom = 1 → domainQuiet s.dev dom = true → s.dev.clk.hbmcStopping = false →
    Leaves (.domainOff dom) s
      (setDomain dom (if bit ((tget 0 s.dev.sn.domains dom).setWidth 64) 2 then 3 else 2) false s.dev)) ∧
  (∀ (s : State) (dom : Fin 16), domainState s.dev dom = 3 → NothingWaits s.dev → downAgain s.dev dom = false →
    Leaves (.domainWake dom) s (injectEvents (setDomain dom 0 false s.dev))) ∧
  (∀ (s : State) (v : W64) (d : Dev), Passes (.seat .manager) (aSn 0x10) s d → d.sn.draining = false → d.sn.bank ≠ d.sn.current →
    Leaves (.snRtDataWrite (.seat .manager) v) s { d with sn := { d.sn with
      routes := tset 0 d.sn.routes (routeKey d.sn.router d.sn.dest d.sn.bank)
        (v.setWidth 3 ^^^ BitVec.ofNat 3 (resetRoute d.sn.router d.sn.dest)) } }) ∧
  (∀ (s : State) (v : W64) (d : Dev), Passes (.seat .manager) (aSn 0x10) s d → (d.sn.draining = true ∨ d.sn.bank = d.sn.current) →
    Leaves (.snRtDataWrite (.seat .manager) v) s (logOpen { d with sn := { d.sn with rtRefused := true } })) ∧
  (∀ (s : State) (v : W64) (d : Dev), Passes (.seat .manager) (aSn 0) s d → bit v 4 = false → bit v 0 = true →
    Leaves (.snEpochSwap (.seat .manager) v) s { d with sn := if d.sn.draining then { d.sn with swapPending := true }
      else { d.sn with current := !d.sn.current, draining := true } }) ∧
  (∀ (s : State), s.dev.sn.draining = true → (s.dev.sn.owed.all fun p => p.epoch = s.dev.sn.current) = true →
    (s.dev.events.all fun e => e.sent ≠ some (!s.dev.sn.current)) = true → NothingWaits s.dev →
    Leaves .epochDrainDone s (injectEvents { s.dev with
      events := s.dev.events ++ [⟨0x031, true, true, 1024, 0x40F, some s.dev.sn.current⟩]
      sn := if s.dev.sn.swapPending then
        { s.dev.sn with swapPending := false, current := !s.dev.sn.current, draining := true } else { s.dev.sn with draining := false } })) ∧
  (∀ (s : State), (s.dev.sn.draining = false ∨ (s.dev.sn.owed.any fun p => p.epoch ≠ s.dev.sn.current) = true ∨
      (s.dev.events.any fun e => e.sent = some (!s.dev.sn.current)) = true) → Leaves .epochDrainDone s s.dev) ∧
  (∀ (s : State) (p : Packet) (env : PinEnv) (m : Master) (d d' : Dev) (n : Nat), p.kind ≤ 2 →
    let q := formPacket p s.dev
    let a := askAt (q.kind ≠ 0) q.addr
    mustWait s.dev q = false → classMaster q.cls = some m → judge m (q.kind ≠ 0) a s.dev = (0, d) →
    travel q a.decoded a.domain d = (n, d') → n ≠ 0 →
    Leaves (.snRequest p env) s (
      if n = 19 then (if q.kind ≤ 1 then { d' with sn := { d'.sn with lost := d'.sn.lost ++ [q] } } else d')
      else if q.kind ≤ 1 then seatError m (q.kind = 0) (answerGate n (noteStatus m n q.addr d'))
      else if n = 3 then { d' with sn := { d'.sn with deadDropped := d'.sn.deadDropped + 1 } }
      else if n = 4 then { d' with sn := { d'.sn with absorbed := d'.sn.absorbed + 1 } }
      else d')) ∧
  (∀ (p : Packet) (decoded : Bool) (dom : Nat) (d : Dev),
    let path := routePath d.sn p.src p.dst p.epoch
    let n := (travel p decoded dom d).1
    let answered (k router : Nat) : Nat := if p.kind ≤ 1 ∧ arrives d.sn router p.src p.epoch = false then 19 else k
    (n = 0 → decoded = true ∧ edgeOff d p.src path = none ∧ (nodeDomain p.src = dom ∨ domainOn d dom = true) ∧ isDead d p.dst = false ∧
      arrives d.sn p.src p.dst p.epoch = true) ∧
    (decoded = false → n = answered 2 p.src) ∧
    (∀ e, decoded = true → edgeOff d p.src path = some e → n = answered 4 (lastRouter (stopEdge e path) p.src)) ∧
    (decoded = true → edgeOff d p.src path = none → arrives d.sn p.src p.dst p.epoch = false → n = 19) ∧
    (decoded = true → edgeOff d p.src path = none → arrives d.sn p.src p.dst p.epoch = true → nodeDomain p.src ≠ dom → domainOn d dom = false →
      n = answered 4 p.dst) ∧
    (decoded = true → edgeOff d p.src path = none → arrives d.sn p.src p.dst p.epoch = true → (nodeDomain p.src = dom ∨ domainOn d dom = true) →
      isDead d p.dst = true → n = answered 3 p.dst)) ∧
  (∀ (s : State) (m : Master) (write : Bool) (a : Ask) (d : Dev), judge m write a s.dev = (0, d) → accessWaits m write a d = true →
    gate m write a s.dev = (20, d)) ∧
  (∀ (s : State) (dom : Fin 16), domainState s.dev dom = 3 → NothingWaits s.dev → downAgain s.dev dom = true →
    Ends (.domainWake dom) s fun t => domainState t.dev dom = 1 ∧ Changes [.sn] s t)

/-- R327 to R336: the interrupt controller. The oldest packet of a source reaches it: a pulse makes the source pending, or merges into it.
A claim of a selected candidate returns it, makes it active and pushes it with its priority; without one it returns the
spurious ID. A complete pops the claim it matches. Software sets and clears pending bits. A due vector that is not held sends its
message.
What follows the model's choices: log entries 8, 55, 60, 100. -/
def Obligations.InterruptController : Prop :=
  (∀ (s : State) (src : Fin 2048) (e : Event), (s.dev.events.find? fun x => x.source = src.val && x.sent.isSome) = some e →
    (s.dev.events.find? fun x => x.node = e.node && x.sent.isSome) = some e →
    nocOn s.dev.clk = true → isDead s.dev irqNode = false → domainOn s.dev 14 = true → arrives s.dev.sn e.node irqNode (e.sent.getD false) = true →
    edgeOff s.dev e.node (routePath s.dev.sn e.node irqNode (e.sent.getD false)) = none →
    (pulseSource src || lineSource src) = true → e.pulse = true →
    Ends (.irqEvent src) s fun t =>
      srcBit t.irq.edge src = true ∧ t.irq.merged = (if srcPending s.irq src then s.irq.merged + 1 else s.irq.merged) ∧
      t.irq.line = s.irq.line ∧ t.irq.claims = s.irq.claims ∧ t.irq.active = s.irq.active ∧ Changes [.irq, .sn, .trc] s t) ∧
  (∀ (s : State) (src : Fin 2048) (e : Event), (s.dev.events.find? fun x => x.source = src.val && x.sent.isSome) = some e →
    (s.dev.events.find? fun x => x.node = e.node && x.sent.isSome) = some e →
    nocOn s.dev.clk = true → isDead s.dev irqNode = false → domainOn s.dev 14 = true → arrives s.dev.sn e.node irqNode (e.sent.getD false) = true →
    edgeOff s.dev e.node (routePath s.dev.sn e.node irqNode (e.sent.getD false)) = none →
    (pulseSource src || lineSource src) = true → e.pulse = false → e.level = true →
    Ends (.irqEvent src) s fun t =>
      srcBit t.irq.line src = true ∧
      (srcSense s.irq src = 1 → srcBit s.irq.line src = false → srcBit t.irq.edge src = true) ∧
      (srcSense s.irq src = 0 → t.irq.edge = s.irq.edge) ∧ t.irq.claims = s.irq.claims ∧ t.irq.active = s.irq.active ∧
      Changes [.irq, .sn, .trc] s t) ∧
  (∀ (s : State) (src : Fin 2048), (s.dev.events.find? fun x => x.source = src.val && x.sent.isSome) = none → Leaves (.irqEvent src) s s.dev) ∧
  (∀ (s : State) (src : Fin 2048), nocOn s.dev.clk = false → Leaves (.irqEvent src) s s.dev) ∧
  (∀ (s : State) (m : Master) (n : Fin 20) (d d' : Dev) (i : Irq), Arrives m false (aIrq (0x108 + 32 * n)) s d →
    flushNode (masterNode d m) s.irq d = (i, d') →
    let q := selectedOf i n
    q ≠ 0 → candidate i n q = true →
    Ends (.irqClaim m n) s fun t =>
      t.dev.host.answer = { Answer.reset with data := w64 q } ∧ srcBit t.irq.active q = true ∧
      claimsOf t.irq n = ⟨q, srcPrio i q⟩ :: claimsOf i n ∧ t.irq.spurious = i.spurious ∧ t.irq.line = i.line ∧
      Changes [.irq, .host, .sn, .trc] { s with dev := d' } t) ∧
  (∀ (s : State) (m : Master) (n : Fin 20) (d d' : Dev) (i : Irq), Arrives m false (aIrq (0x108 + 32 * n)) s d →
    flushNode (masterNode d m) s.irq d = (i, d') →
    (selectedOf i n = 0 ∨ candidate i n (selectedOf i n) = false) →
    Ends (.irqClaim m n) s fun t =>
      t.dev.host.answer = { Answer.reset with data := 0x7FF } ∧ t.irq.spurious = i.spurious + 1 ∧ t.irq.claims = i.claims ∧
      t.irq.active = i.active ∧ Changes [.irq, .host, .sn, .trc] { s with dev := d' } t) ∧
  (∀ (s : State) (m : Master) (n : Fin 20) (v : W64) (d d' : Dev) (i : Irq) (c : Claim) (r : List Claim),
    Passes m (aIrq (0x110 + 32 * n)) s d → flushNode (masterNode d m) s.irq d = (i, d') →
    (irqWriter m = true ∨ ownVector m n = true) → claimsOf i n = c :: r →
    (c.source = fld v 10 0 → Ends (.irqComplete m n v) s fun t =>
      t.irq.claims = tset [] i.claims n r ∧ t.irq.active = putSrc i.active c.source false ∧
      t.irq.badComplete = i.badComplete ∧ t.irq.edge = i.edge ∧ Changes [.irq, .host, .sn, .trc] { s with dev := d' } t) ∧
    (c.source ≠ fld v 10 0 → LeavesIrq (.irqComplete m n v) s { i with badComplete := i.badComplete + 1 } d')) ∧
  (∀ (s : State) (m : Master) (w : Fin 32) (v : W64) (d d' : Dev) (i : Irq), Passes m (aIrq (0x1100 + 8 * w)) s d →
    flushNode (masterNode d m) s.irq d = (i, d') → irqWriter m = true →
    Ends (.irqSet m w v) s fun t =>
      t.irq.soft = tset 0 i.soft w (tget 0 i.soft w ||| (v &&& knownWord w)) ∧ t.irq.edge = i.edge ∧
      t.irq.claims = i.claims ∧ Changes [.irq, .host, .sn, .trc] { s with dev := d' } t) ∧
  (∀ (s : State) (m : Master) (w : Fin 32) (v : W64) (d d' : Dev) (i : Irq), Passes m (aIrq (0x1000 + 8 * w)) s d →
    flushNode (masterNode d m) s.irq d = (i, d') → (irqWriter m = true ∨ m = .seat .board) →
    let u := if irqWriter m then v else v &&& alertWord i w
    Ends (.irqPendingWrite m w v) s fun t =>
      t.irq.soft = tset 0 i.soft w (tget 0 i.soft w &&& ~~~u) ∧ t.irq.edge = tset 0 i.edge w (tget 0 i.edge w &&& ~~~u) ∧
      t.irq.claims = i.claims ∧ t.irq.active = i.active ∧ Changes [.irq, .host, .sn, .trc] { s with dev := d' } t) ∧
  (∀ (s : State) (v : Fin 16), nocOn s.dev.clk = true → msixDue s.irq v = true → msixHeld s.dev v = false →
    let S := seatOf s.dev.host (vectorSeat v).1
    let e := (vectorSeat v).2
    LeavesIrq (.msixMessage v) s { s.irq with msixOut := setBit s.irq.msixOut v true }
      { s.dev with host := { s.dev.host with msixSent := s.dev.host.msixSent
          ++ [(S.port, v.val, msixWord S e 0, w64 (fld (msixWord S e 1) 31 0))] } }) ∧
  (∀ (s : State) (v : Fin 16), (nocOn s.dev.clk = false ∨ msixDue s.irq v = false ∨ msixHeld s.dev v = true) → Leaves (.msixMessage v) s s.dev) ∧
  (∀ (s : State) (a b : Event) (rest : List Event), s.dev.events = a :: b :: rest → a.node = b.node → a.source ≠ b.source →
    a.sent.isSome = true → b.sent.isSome = true → lineSource a.source = true → lineSource b.source = true → a.pulse = false →
    b.pulse = false → isDead s.dev irqNode = false → domainOn s.dev 14 = true →
    nocOn s.dev.clk = true → (∀ e, arrives s.dev.sn a.node irqNode e = true ∧ edgeOff s.dev a.node (routePath s.dev.sn a.node irqNode e) = none) →
    Ends (.irqEvent (Fin.ofNat 2048 b.source)) s fun t => srcBit t.irq.line a.source = a.level ∧ srcBit t.irq.line b.source = b.level ∧
      t.dev.events = rest) ∧
  (∀ (s : State) (src : Fin 2048) (e : Event), (s.dev.events.find? fun x => x.source = src.val && x.sent.isSome) = some e →
    (s.dev.events.find? fun x => x.node = e.node && x.sent.isSome) = some e → isDead s.dev irqNode = true → domainOn s.dev 14 = true →
    nocOn s.dev.clk = true → arrives s.dev.sn e.node irqNode (e.sent.getD false) = true → edgeOff s.dev e.node (routePath s.dev.sn e.node irqNode (e.sent.getD false)) = none →
    Ends (.irqEvent src) s fun t => t.irq = s.irq ∧ t.dev.sn.deadDropped = s.dev.sn.deadDropped + 1 ∧ Changes [.sn, .trc] s t)

/-- R338 to R345, R361: the trace funnel. An enable that is not refused starts it afresh, a disable makes it flush, and it ends once
its last page is written. A packet joins the open page; a completed page goes to the TRACE region. A core leaves and
enters low power with its packets.
R343: a page goes over PCIe unless OUT_WAIT holds it; a STOP region that is full ends the output; a full funnel discards. R340: CORE_SYNC is a core's first packet
in a page. R341: a core whose
POWER_DOWN is accepted sleeps.
What follows the model's choices: log entries 21, 59, 60, 79, 100. -/
def Obligations.TraceFunnel : Prop :=
  (∀ (s : State) (x : Seat) (v : W64) (d : Dev), Passes (.seat x) (aTrace 0) s d → (x = .manager ∨ x = .debug) → bit v 1 = false →
    d.trc.flushing = false → d.trc.active = false → enableRefused d = false →
    Ends (.traceEnable (.seat x) v) s fun t =>
      let T := t.dev.trc
      T.active = true ∧ T.enable = true ∧ T.pages = 0 ∧ T.seq = 0 ∧ T.hostRd = 0 ∧ T.page = none ∧ T.done = [] ∧
      (T.waiting.map fun p => (p.src, p.kind, p.words.drop 1, p.ts)) =
        (((List.range 4).filter fun c => bit d.trc.srcEn c && decide (coreState d.trc c = 0)).map fun c => (c, 3, [1], d.clk.tsc % 2 ^ 48)) ∧
      T.full = false ∧ T.output = d.trc.output ∧ Changes [.trc, .host, .free] { s with dev := d } t) ∧
  (∀ (s : State) (x : Seat) (v : W64) (d : Dev), Passes (.seat x) (aTrace 0) s d → (x = .manager ∨ x = .debug) → bit v 1 = false →
    d.trc.flushing = false → d.trc.active = false → enableRefused d = true →
    Leaves (.traceEnable (.seat x) v) s (logOpen { d with trc := { d.trc with cfgRefused := true } })) ∧
  (∀ (s : State) (x : Seat) (v : W64) (d : Dev), Passes (.seat x) (aTrace 0) s d → (x = .manager ∨ x = .debug) → bit v 1 = false →
    d.trc.flushing = false → d.trc.active = true → d.trc.waiting ≠ [] →
    Leaves (.traceDisable (.seat x) v) s { d with trc := { d.trc with enable := false, flushing := true } }) ∧
  (∀ (s : State), nocOn s.dev.clk = true → s.dev.trc.flushing = true → s.dev.trc.waiting = [] → s.dev.trc.page = none → s.dev.trc.done = [] →
    s.dev.trc.restart = false →
    Leaves .traceFlushDone s { s.dev with trc := { s.dev.trc with flushing := false, active := false } }) ∧
  (∀ (s : State) (x : Seat) (d : Dev) (ws : List W64), Passes (.seat x) (aTrace 0) s d → (x = .manager ∨ x = .debug) →
    d.trc.flushing = false → d.trc.active = true → d.trc.enable = true → d.trc.page = some ws →
    Leaves (.traceFlush (.seat x)) s { d with trc := { d.trc with
      page := none, seq := d.trc.seq + 1, done := d.trc.done ++ [ws ++ List.replicate (512 - ws.length) (BitVec.allOnes 64)] } }) ∧
  (∀ (s : State) (ws : List W64), nocOn s.dev.clk = true → s.dev.trc.page = some ws →
    Leaves .pageFlushTimeout s { s.dev with trc := { s.dev.trc with
      page := none, seq := s.dev.trc.seq + 1
      done := s.dev.trc.done ++ [ws ++ List.replicate (512 - ws.length) (BitVec.allOnes 64)] } }) ∧
  (∀ (s : State) (src : Byte) (p : TrcPkt) (ws : List W64), 4 ≤ src.toNat → nocOn s.dev.clk = true → (s.dev.trc.waiting.find? fun p => p.src = src.toNat) = some p →
    s.dev.trc.full = false → tget 0 s.dev.trc.lost src.toNat = 0 → s.dev.trc.page = some ws → s.dev.trc.flushing = false →
    ws.length + p.words.length + 1 < 512 → nextSource s.dev.trc = some src.toNat →
    Ends (.tracePacket src) s fun t => t.dev.trc.turn = src.toNat ∧
      t.dev.trc.page = some (ws ++ (word [(56, 8, p.src), (52, 4, p.kind), (48, 4, p.words.length), (0, 48, p.ts)] :: p.words)) ∧
      t.dev.trc.waiting = s.dev.trc.waiting.erase p ∧ t.dev.trc.done = s.dev.trc.done ∧ Changes [.trc, .free] s t) ∧
  (∀ (s : State) (ws : List W64) (rest : List (List W64)) (base size : Nat), nocOn s.dev.clk = true → s.dev.trc.done = ws :: rest → s.dev.trc.output = 1 →
    s.dev.trc.stop = false → hbmRegion? s.dev 5 = some (base, size) →
    let a := base + 4096 * (s.dev.trc.pages % (size / 4096))
    let die := hbmDie a
    (blockedTo s.dev (die * 256) = true → Leaves .tracePageWrite s s.dev) ∧
    (blockedTo s.dev (die * 256) = false → arrives s.dev.sn 0x405 (die * 256) s.dev.sn.current = true → ws.length = 512 →
      a % 0x20_0000 + 4096 ≤ 0x20_0000 →
      Ends .tracePageWrite s fun t => t.dev.trc.pages = s.dev.trc.pages + 1 ∧ t.dev.trc.done = rest ∧
        t.dev.trc.page = s.dev.trc.page ∧
        (domainOn s.dev (4 + die) = true → isDead s.dev (die * 256) = false →
          t.dev.mem = hbmPutWords s.dev.mem a ws) ∧
        (domainOn s.dev (4 + die) = true → isDead s.dev (die * 256) = true →
          t.dev.mem = s.dev.mem ∧ t.dev.sn.deadDropped = s.dev.sn.deadDropped + 8) ∧
        (domainOn s.dev (4 + die) = false → t.dev.mem = s.dev.mem ∧ t.dev.sn.absorbed = s.dev.sn.absorbed + 8) ∧
        Changes [.trc, .mem, .sn] s t)) ∧
  (∀ (s : State) (x : Seat) (v : W64) (d : Dev), Passes (.seat x) (aTrace 0x38) s d → (x = .manager ∨ x = .debug) →
    Leaves (.traceHostRdWrite (.seat x) v) s (if v.toNat < d.trc.hostRd ∨ d.trc.pages < v.toNat
      then logOpen { d with trc := { d.trc with cfgRefused := true } } else { d with trc := { d.trc with hostRd := v.toNat } })) ∧
  (∀ (s : State) (core : Fin 4) (a : W64), coreState s.dev.trc core = 0 → s.dev.trc.active = false →
    Ends (.corePowerDown core a) s fun t => coreState t.dev.trc core = 2 ∧ Changes [.trc] s t) ∧
  (∀ (s : State) (core : Fin 4) (a : W64), coreState s.dev.trc core = 0 → s.dev.trc.active = true → s.dev.trc.enable = true →
    bit s.dev.trc.srcEn core = true → tget false s.dev.trc.overflow core = false →
    let l := tget [] s.dev.trc.atoms core
    let ts := s.dev.clk.tsc % 2 ^ 48
    Ends (.corePowerDown core a) s fun t => coreState t.dev.trc core = 1 ∧
      t.dev.trc.waiting = s.dev.trc.waiting ++ (if l = [] then [] else [⟨core, 1, [atomsWord l], ts⟩]) ++ [⟨core, 4, [a], ts⟩] ∧
      tget [] t.dev.trc.atoms core = [] ∧ Changes [.trc] s t) ∧
  (∀ (s : State) (core : Fin 4), selectedOf s.irq core ≠ 0 →
    (coreState s.dev.trc core = 1 → Leaves (.coreWake core) s (setCore core 3 s.dev)) ∧
    (coreState s.dev.trc core = 2 → s.dev.trc.active = false → Leaves (.coreWake core) s (setCore core 0 s.dev))) ∧
  (∀ (s : State) (src : Byte), (nextSource s.dev.trc ≠ some src.toNat ∨ nocOn s.dev.clk = false) → Leaves (.tracePacket src) s s.dev) ∧
  (∀ (s : State) (src : Byte) (p : TrcPkt), (src.toNat = 0x10 ∨ src.toNat = 0x11) → nextSource s.dev.trc = some src.toNat → nocOn s.dev.clk = true →
    (s.dev.trc.waiting.find? fun p => p.src = src.toNat) = some p → s.dev.trc.full = false → s.dev.trc.page = none →
    16 ≤ s.dev.trc.done.length →
    Ends (.tracePacket src) s fun t => t.dev.trc.waiting = s.dev.trc.waiting.erase p ∧ t.dev.trc.done = s.dev.trc.done ∧
      tget 0 t.dev.trc.dropped (src.toNat - 0x0C) = tget 0 s.dev.trc.dropped (src.toNat - 0x0C) + 1 ∧
      tget 0 t.dev.trc.lost src.toNat = tget 0 s.dev.trc.lost src.toNat + 1 ∧ Changes [.trc, .free] s t) ∧
  (∀ (s : State) (src : Byte) (p : TrcPkt), 4 ≤ src.toNat → nextSource s.dev.trc = some src.toNat → nocOn s.dev.clk = true →
    (s.dev.trc.waiting.find? fun p => p.src = src.toNat) = some p → s.dev.trc.full = false → tget 0 s.dev.trc.lost src.toNat = 0 →
    s.dev.trc.page = none → s.dev.trc.done.length < 16 → s.dev.trc.flushing = false → p.words.length < 16 →
    Ends (.tracePacket src) s fun t =>
      t.dev.trc.page = some ([word [(56, 8, 0xFF), (52, 4, 0), (48, 4, 2), (0, 48, s.dev.clk.tsc % 2 ^ 48)], w64 s.dev.clk.tsc,
        w64 s.dev.trc.seq, word [(56, 8, p.src), (52, 4, p.kind), (48, 4, p.words.length), (0, 48, p.ts)]] ++ p.words) ∧
      t.dev.trc.waiting = s.dev.trc.waiting.erase p ∧
      (∀ c, c < 4 → bit s.dev.trc.srcEn c = true → tget 0 t.dev.trc.needSync c = 2) ∧ Changes [.trc, .free] s t) ∧
  (∀ (tsc core : Nat) (t : Trace), t.enable = true → bit t.srcEn core = true → unitWords t core + 2 ≤ 128 → tget [] t.atoms core ≠ [] →
    (flushAtoms tsc t core).waiting = t.waiting ++ [⟨core, 1, [atomsWord (tget [] t.atoms core)], tsc % 2 ^ 48⟩] ∧
    tget [] (flushAtoms tsc t core).atoms core = []) ∧
  (∀ (d : Dev) (core : Fin 4) (taken : Bool), traceOn core d = true → tget false d.trc.overflow core = false →
    let l := tget [] d.trc.atoms core
    (l.length < 57 → retireBranch core taken d = { d with trc := { d.trc with atoms := tset [] d.trc.atoms core (l ++ [taken]) } }) ∧
    (l.length = 57 → d.trc.full = false → unitRoom core 2 d = true → (retireBranch core taken d).trc.waiting = d.trc.waiting ++
      [⟨core, 1, [atomsWord (l ++ [taken])], d.clk.tsc % 2 ^ 48⟩] ∧ tget [] (retireBranch core taken d).trc.atoms core = []) ∧
    (l.length = 57 → d.trc.full = false → unitRoom core 2 d = false → (retireBranch core taken d).trc.waiting = d.trc.waiting ∧
      tget 0 (retireBranch core taken d).trc.dropped core = tget 0 d.trc.dropped core + 1 ∧
      tget false (retireBranch core taken d).trc.overflow core = true)) ∧
  (∀ (d : Dev) (core : Fin 4), traceOn core d = true → tget false d.trc.overflow core = true → unitRoom core 3 d = true →
    (overflowSync core d).trc.waiting = d.trc.waiting ++ [⟨core, 3, [Config.freeWord d.free, 0x34], d.clk.tsc % 2 ^ 48⟩] ∧
    tget false (overflowSync core d).trc.overflow core = false) ∧
  (∀ (d : Dev) (src kind : Nat) (ws : List W64), (src = 0x10 ∨ src = 0x11) → traceOn src d = true →
    funnelFull (ws.length + 1) d = true → trace src kind ws d = dropPacket src d) ∧
  (∀ (s : State) (ws : List W64) (rest : List (List W64)), nocOn s.dev.clk = true → s.dev.trc.done = ws :: rest → s.dev.trc.output = 2 →
    (outWait s.dev = true → Leaves .tracePageWrite s s.dev) ∧
    (outWait s.dev = false → Leaves .tracePageWrite s (dmaWrite (seatOf s.dev.host (seatOfNo s.dev.trc.seat)).port
      ((s.dev.trc.hostBase.toNat + 4096 * (s.dev.trc.pages % s.dev.trc.hostPages)) % 2 ^ 64) ws
      { s.dev with trc := { s.dev.trc with pages := s.dev.trc.pages + 1, done := rest } }))) ∧
  (∀ (s : State), (s.dev.trc.done = [] ∨ nocOn s.dev.clk = false) → Leaves .tracePageWrite s s.dev) ∧
  (∀ (s : State) (ws : List W64) (rest : List (List W64)) (base size : Nat), nocOn s.dev.clk = true → s.dev.trc.done = ws :: rest → s.dev.trc.output = 1 →
    hbmRegion? s.dev 5 = some (base, size) → s.dev.trc.stop = true → size / 4096 ≤ s.dev.trc.pages + 1 →
    blockedTo s.dev (hbmDie (base + 4096 * (s.dev.trc.pages % (size / 4096))) * 256) = false →
    Ends .tracePageWrite s fun t => t.dev.trc.full = true ∧ t.dev.trc.done = [] ∧ t.dev.trc.page = none ∧
      t.dev.trc.pages = s.dev.trc.pages + 1 ∧ Changes [.trc, .mem, .sn] s t) ∧
  (∀ (s : State) (core : Fin 4) (p : TrcPkt) (ws : List W64), nocOn s.dev.clk = true → nextSource s.dev.trc = some core.val →
    (s.dev.trc.waiting.find? fun p => p.src = core.val) = some p → s.dev.trc.full = false → tget 0 s.dev.trc.lost core = 0 →
    tget 0 s.dev.trc.needSync core = 0 → tget false s.dev.trc.overflow core = false → s.dev.trc.flushing = false →
    s.dev.trc.page = some ws → ws.length + p.words.length + 1 < 512 →
    Ends (.tracePacket (BitVec.ofNat 8 core)) s fun t => t.dev.trc.turn = core.val ∧
      t.dev.trc.page = some (ws ++ (word [(56, 8, p.src), (52, 4, p.kind), (48, 4, p.words.length), (0, 48, p.ts)] :: p.words)) ∧
      (p.kind ≠ 4 → t.dev.trc.waiting = s.dev.trc.waiting.erase p ∧ t.dev.trc.cores = s.dev.trc.cores) ∧
      (p.kind = 4 → coreState s.dev.trc core = 1 → coreState t.dev.trc core = 2) ∧ Changes [.trc, .free] s t) ∧
  (∀ (s : State) (src : Byte) (p : TrcPkt), nocOn s.dev.clk = true → 4 ≤ src.toNat → nextSource s.dev.trc = some src.toNat →
    (s.dev.trc.waiting.find? fun p => p.src = src.toNat) = some p → s.dev.trc.full = true → s.dev.trc.flushing = false →
    Ends (.tracePacket src) s fun t => t.dev.trc.waiting = s.dev.trc.waiting.erase p ∧ t.dev.trc.page = s.dev.trc.page ∧
      t.dev.trc.done = s.dev.trc.done ∧ Changes [.trc, .free] s t) ∧
  (∀ (s : State) (src : Byte), (src.toNat < 4 ∨ src.toNat = 0x20) → s.dev.trc.full = false → s.dev.trc.page = none →
    16 ≤ s.dev.trc.done.length → Ends (.tracePacket src) s fun t => t.dev.trc = s.dev.trc ∧ Changes [.free] s t) ∧
  (∀ (s : State) (core : Fin 4) (p : TrcPkt), nocOn s.dev.clk = true → nextSource s.dev.trc = some core.val →
    (s.dev.trc.waiting.find? fun p => p.src = core.val) = some p → p.kind ≠ 3 → s.dev.trc.full = false → tget 0 s.dev.trc.lost core = 0 →
    bit s.dev.trc.srcEn core = true → s.dev.trc.flushing = false → s.dev.trc.page = none → s.dev.trc.done.length < 16 → p.words.length < 16 →
    let ts := s.dev.clk.tsc % 2 ^ 48
    Ends (.tracePacket (BitVec.ofNat 8 core)) s fun t => t.dev.trc.page = some
      ([word [(56, 8, 0xFF), (52, 4, 0), (48, 4, 2), (0, 48, ts)], w64 s.dev.clk.tsc, w64 s.dev.trc.seq,
        word [(56, 8, core), (52, 4, 3), (48, 4, 2), (0, 48, ts)], Config.freeWord s.dev.free, 2,
        word [(56, 8, p.src), (52, 4, p.kind), (48, 4, p.words.length), (0, 48, p.ts)]] ++ p.words) ∧
      tget 0 t.dev.trc.needSync core = 0) ∧
  (∀ (s : State), nocOn s.dev.clk = false → Leaves .traceFlushDone s s.dev ∧ Leaves .pageFlushTimeout s s.dev)

/-- R349 to R356, R309: clocks, resets and start-up. A monitor that trips on the crystal takes the root to IOSC and the module to its safe
state; off it, it only shows. A switch to the crystal is refused without it. A reset keeps the fuses, the Keep store's log and what
the clocks block counts; RESET_N and RESET_KEY make it, a short pulse and another seat do not. A start-up stage that
passes goes on to the next, the firmware stage to IDLE; one that fails shows why.
What follows the model's choices: log entries 8, 60, 61. -/
def Obligations.ClocksAndStartup : Prop :=
  (∀ (s : State), s.dev.clk.source = false →
    Leaves (.clockSourceFailure .crystal) s { s.dev with clk := { s.dev.clk with xtalOk := false } } ∧
    Leaves (.clockSourceFailure .pll) s s.dev) ∧
  (∀ (s : State), s.dev.clk.source = true → s.dev.clk.ioscReady = true →
    Ends (.clockSourceFailure .crystal) s fun t =>
      t.dev.clk.failed = true ∧ t.dev.clk.xtalLost = true ∧ t.dev.clk.xtalOk = false ∧ t.dev.run.committed = s.dev.run.committed ∧
      (Config.freeBit s.dev.free = false →
        t.dev.clk.source = false ∧ t.dev.clk.frozen = s.dev.clk.frozen ∧ t.dev.pins.lanesIdle = true ∧ t.dev.tio.highZ = true ∧
        (s.dev.run.st = .running → t.dev.run.st = .stopping ∧ t.dev.run.reqs.getLsbD 3 = true)) ∧
      (Config.freeBit s.dev.free = true → t.dev.clk.ioscReady = false ∧ t.dev.clk.bothLost = true ∧ t.dev.clk.frozen = true ∧
        Changes [.clk, .free] s t) ∧
      Changes [.tio, .lanes, .links, .run, .keep, .sn, .trc, .clk, .pins, .free] s t) ∧
  (∀ (s : State), s.dev.clk.source = true → s.dev.clk.ioscReady = false →
    Leaves (.clockSourceFailure .crystal) s { s.dev with free := s.dev.free + 1, clk := { s.dev.clk with
      failed := true, xtalLost := true, xtalOk := false, bothLost := true, frozen := true } }) ∧
  (∀ (s : State), s.dev.clk.source = true →
    Ends (.clockSourceFailure .pll) s fun t =>
      t.dev.clk.failed = true ∧ t.dev.clk.pllLost = true ∧ t.dev.clk.source = false ∧ t.dev.clk.pllRelocking = true ∧
      t.dev.clk.frozen = true ∧ t.dev.tio.highZ = true ∧ t.dev.run.committed = s.dev.run.committed) ∧
  (∀ (s : State), s.dev.clk.failBarrier = true → s.dev.run.st = .stopping → s.dev.run.draining = false →
    Ends .clockFailStopTimeout s fun t =>
      t.dev.run.draining = true ∧ t.dev.run.midCycle = true ∧ t.dev.run.set.getLsbD 3 = true ∧ t.dev.clk.failBarrier = false ∧
      t.dev.run.committed = s.dev.run.committed ∧ BanksKeep s t ∧ Changes [.tiles, .exch, .tio, .run, .bkt, .links, .sn, .trc, .clk] s t) ∧
  (∀ (s : State), s.dev.clk.failBarrier = false → Leaves .clockFailStopTimeout s s.dev) ∧
  (∀ (s : State), s.dev.clk.frozen = false →
    Leaves .ioscReady s { s.dev with clk := { s.dev.clk with ioscReady := true } }) ∧
  (∀ (s : State), s.dev.clk.frozen = true → s.dev.clk.source = true → s.dev.clk.failed = true →
    Ends .ioscReady s fun t => t.dev.clk.ioscReady = true ∧ t.dev.clk.frozen = false ∧ t.dev.clk.source = false ∧
      t.dev.tio.highZ = true ∧ t.dev.run.committed = s.dev.run.committed) ∧
  (∀ (s : State), Leaves .xtalOk s { s.dev with clk := { s.dev.clk with xtalOk := true } }) ∧
  (∀ (s : State) (x : Seat) (d : Dev), Passes (.seat x) (aClocks 0) s d → (x = .manager ∨ x = .board) →
    (d.clk.xtalOk = true → d.clk.source = false →
      Leaves (.useXtal (.seat x)) s { d with clk := { d.clk with source := true, switches := (d.clk.switches + 1) % 2 ^ 32 } }) ∧
    (d.clk.xtalOk = false → Leaves (.useXtal (.seat x)) s (logOpen { d with clk := { d.clk with switchRefused := true } }))) ∧
  (∀ (s : State), s.dev.clk.pllRelocking = true →
    Leaves .pllRelock s { s.dev with clk := { s.dev.clk with pllRelocking := false, frozen := !s.dev.clk.ioscReady } }) ∧
  (∀ (s : State) (straps : BitVec 6),
    Ends (.powerOnReset straps) s fun t =>
      t.dev.run.st = .boot ∧ t.dev.run.committed = 0 ∧ t.dev.clk.stage = 0 ∧ t.dev.clk.switches = 0 ∧ t.dev.tiles = [] ∧
      t.dev.mem = MemRegs.reset ∧ t.dev.lanes = [] ∧ t.dev.links = [] ∧ t.dev.host.order = [] ∧ t.irq.claims = [] ∧
      t.dev.fuse = { s.dev.fuse with modid := straps } ∧ t.dev.keep.log = s.dev.keep.log ∧ t.dev.pins.thermtrip = false ∧
      t.pending = s.pending) ∧
  (∀ (s : State) (ns : Nat), 1000 ≤ ns →
    Ends (.resetN ns) s fun t =>
      t.dev.run.st = .boot ∧ t.dev.run.committed = 0 ∧ t.dev.clk.stage = 0 ∧ t.dev.clk.switches = s.dev.clk.switches ∧
      t.dev.tiles = [] ∧ t.dev.mem = MemRegs.reset ∧ t.dev.lanes = [] ∧ t.dev.links = [] ∧ t.dev.host.order = [] ∧
      t.irq.claims = [] ∧ t.dev.fuse = s.dev.fuse ∧ t.dev.keep.log = s.dev.keep.log ∧
      t.dev.pins.thermtrip = s.dev.pins.thermtrip ∧ t.pending = s.pending) ∧
  (∀ (s : State) (ns : Nat), ns < 1000 → Leaves (.resetN ns) s s.dev) ∧
  (∀ (s : State) (d : Dev), Passes (.seat .manager) (aClocks 0x100) s d →
    Ends (.resetKey (.seat .manager)) s fun t =>
      t.dev.run.st = .boot ∧ t.dev.clk.stage = 0 ∧ t.dev.tiles = [] ∧ t.dev.mem = MemRegs.reset ∧ t.dev.host.order = [] ∧
      t.dev.fuse = s.dev.fuse ∧ t.dev.keep.log = s.dev.keep.log) ∧
  (∀ (s : State) (d : Dev), Passes (.seat .board) (aClocks 0x100) s d → Leaves (.resetKey (.seat .board)) s d) ∧
  (∀ (s : State), s.dev.clk.stFailed = false → s.dev.clk.frozen = false → s.dev.clk.stage < 5 → s.dev.clk.stage ≠ 2 →
    Ends .bootWatchdog s fun t => t.dev.clk.stage = 0 ∧ t.dev.run.st = .boot ∧ t.dev.tiles = [] ∧ t.dev.fuse = s.dev.fuse ∧
      t.dev.clk.tryOther = false) ∧
  (∀ (s : State) (b : Bool), s.dev.clk.stFailed = false → s.dev.clk.frozen = false → s.dev.clk.stage = 2 → bootSlot s.dev = some b →
    Ends .bootWatchdog s fun t => t.dev.clk.stage = 0 ∧ t.dev.run.st = .boot ∧ t.dev.clk.slot = false ∧ t.dev.clk.tried = b ∧
      t.dev.clk.tryOther = true) ∧
  (∀ (s : State), (s.dev.clk.stFailed = true ∨ 5 ≤ s.dev.clk.stage) → Leaves .bootWatchdog s s.dev) ∧
  (∀ (s : State) (okA okB : Bool) (g : BitVec 16), s.dev.clk.stFailed = false → s.dev.clk.frozen = false → s.dev.clk.stage = 0 → s.dev.clk.source = false →
    Leaves (.startupStage (.passed okA okB g)) s { s.dev with clk := { s.dev.clk with
      xtalOk := true, source := true, switches := (s.dev.clk.switches + 1) % 2 ^ 32, stage := 1 } }) ∧
  (∀ (s : State) (okA okB : Bool) (g : BitVec 16) (b : Bool), s.dev.clk.stFailed = false → s.dev.clk.frozen = false → s.dev.clk.stage = 2 →
    s.dev.clk.tryOther = false → s.dev.run.st = .boot → bootSlot s.dev = some b → slotVerifies s.dev.keep b = true →
    (if b then okB else okA) = true →
    Ends (.startupStage (.passed okA okB g)) s fun t =>
      t.dev.run.st = .idle ∧ t.dev.clk.stage = 3 ∧ t.dev.clk.slot = b ∧ t.dev.clk.fallback = false ∧
      Changes [.run, .lanes, .links, .pair, .host, .keep, .sn, .trc, .clk, .irq] s t) ∧
  (∀ (s : State) (okA okB : Bool) (g : BitVec 16), s.dev.clk.stFailed = false → s.dev.clk.frozen = false → s.dev.clk.stage = 4 →
    Leaves (.startupStage (.passed okA okB g)) s { s.dev with clk := { s.dev.clk with refclk := g, calibrated := g, stage := 5 } }) ∧
  (∀ (s : State) (detail : Nat), s.dev.clk.stFailed = false → s.dev.clk.frozen = false → s.dev.clk.stage < 5 →
    (s.dev.clk.stage ≠ 2 ∨ bootSlot s.dev = none) →
    Ends (.startupStage (.failed detail)) s fun t =>
      t.dev.clk.stFailed = true ∧ t.dev.clk.stReason = 0x0901 + s.dev.clk.stage ∧ t.dev.clk.stDetail = detail % 256 ∧
      t.dev.clk.stage = s.dev.clk.stage ∧ Changes [.keep, .clk, .free] s t) ∧
  (∀ (s : State) (g : Fin 16), 5 ≤ s.dev.clk.stage →
    Leaves (.refclkLAppears g) s { s.dev with clk := { s.dev.clk with
      refclk := setBit s.dev.clk.refclk g true, calibrated := setBit s.dev.clk.calibrated g true } }) ∧
  (∀ (s : State) (x : Seat) (v : W64) (d : Dev), Passes (.seat x) (aClocks 0x20) s d → (x = .manager ∨ x = .board) →
    Leaves (.tscSet (.seat x) v) s { d with clk := { d.clk with tscNew := some v.toNat } }) ∧
  (∀ (s : State), s.dev.clk.frozen = true → s.dev.clk.source = false →
    Leaves .ioscReady s { s.dev with clk := { s.dev.clk with ioscReady := true, frozen := s.dev.clk.pllRelocking } }) ∧
  (∀ (s : State) (okA okB : Bool) (g : BitVec 16) (b : Bool), s.dev.clk.stFailed = false → s.dev.clk.frozen = false → s.dev.clk.stage = 2 →
    bootSlot s.dev = some b → (slotVerifies s.dev.keep b = false ∨ (if b then okB else okA) = false) →
    Ends (.startupStage (.passed okA okB g)) s fun t => t.dev.run.st = .boot ∧ t.dev.clk.stage = 0 ∧ t.dev.clk.tried = b ∧
      t.dev.clk.tryOther = true) ∧
  (∀ (s : State) (detail : Nat) (b : Bool), s.dev.clk.stFailed = false → s.dev.clk.frozen = false → s.dev.clk.stage = 2 → bootSlot s.dev = some b →
    Ends (.startupStage (.failed detail)) s fun t => t.dev.run.st = .boot ∧ t.dev.clk.stage = 0 ∧ t.dev.clk.tried = b ∧
      t.dev.clk.tryOther = true) ∧
  (∀ (s : State) (okA okB : Bool) (g : BitVec 16), s.dev.clk.stFailed = false → s.dev.clk.frozen = false → s.dev.clk.stage = 2 → s.dev.clk.pw = 2 →
    s.dev.run.st = .boot → slotVerifies s.dev.keep s.dev.clk.slot = true → (if s.dev.clk.slot then okB else okA) = true →
    Ends (.startupStage (.passed okA okB g)) s fun t =>
      t.dev.run.st = .idle ∧ t.dev.clk.stage = 3 ∧ t.dev.clk.slot = s.dev.clk.slot) ∧
  (∀ (s : State) (okA okB : Bool) (g : BitVec 16), s.dev.clk.stFailed = false → s.dev.clk.frozen = false → s.dev.clk.stage = 2 → bootSlot s.dev = none →
    Ends (.startupStage (.passed okA okB g)) s fun t => t.dev.clk.stFailed = true ∧ t.dev.clk.stReason = 0x0903 ∧
      t.dev.clk.stage = 2 ∧ Changes [.keep, .clk, .free] s t) ∧
  (∀ (s : State) (okA okB : Bool) (g : BitVec 16), s.dev.clk.stFailed = false → s.dev.clk.frozen = false → (s.dev.clk.stage = 1 ∨ s.dev.clk.stage = 3) →
    Leaves (.startupStage (.passed okA okB g)) s { s.dev with clk := { s.dev.clk with stage := s.dev.clk.stage + 1 } }) ∧
  (∀ (s : State) (r : StageResult), (s.dev.clk.stFailed = true ∨ 5 ≤ s.dev.clk.stage ∨ s.dev.clk.frozen = true) → Leaves (.startupStage r) s s.dev)

/-- R358 to R361, R365: power states. A request is taken, or refused with its code; entry makes the domains absorb, and completes once they
are OFF; an enabled wake source begins the exit, or aborts an entry; the exit completes once every domain is ON. The HBMC gate
turns the domains 4 to 7 off and on, and finds its shut-down complete where they are OFF already.
What follows the model's choices: log entries 8, 62, 63. -/
def Obligations.PowerStates : Prop :=
  (∀ (s : State) (x : Seat) (d : Dev), Passes (.seat x) (aClocks 0x100) s d → (x = .manager ∨ x = .board) →
    (powerCode 1 d = 0 → Leaves (.pwrCtrlSleep (.seat x)) s
      { d with clk := { d.clk with pwReason := 0, pwRequested := true, pwTarget := 1 } }) ∧
    (powerCode 2 d = 0 → Leaves (.pwrCtrlDeep (.seat x)) s
      { d with clk := { d.clk with pwReason := 0, pwRequested := true, pwTarget := 2 } }) ∧
    (powerCode 1 d ≠ 0 → Ends (.pwrCtrlSleep (.seat x)) s fun t => t.dev.clk.pwReason = powerCode 1 d ∧
      t.dev.clk.pwRequested = d.clk.pwRequested ∧ Changes [.host, .keep, .clk, .free] { s with dev := d } t) ∧
    (powerCode 2 d ≠ 0 → Ends (.pwrCtrlDeep (.seat x)) s fun t => t.dev.clk.pwReason = powerCode 2 d ∧
      t.dev.clk.pwRequested = d.clk.pwRequested ∧ Changes [.host, .keep, .clk, .free] { s with dev := d } t)) ∧
  (∀ (s : State), s.dev.clk.pwRequested = true →
    Ends .powerEntryStart s fun t =>
      t.dev.clk.pwRequested = false ∧ t.dev.clk.pw = 1 ∧ t.dev.clk.lastState = (if s.dev.clk.pw = 3 then 1 else 0) ∧
      (∀ m ∈ domainsOff s.dev.clk.pwTarget, domainState s.dev m = 0 → domainState t.dev m = 1) ∧
      (∀ m, (m ∉ domainsOff s.dev.clk.pwTarget ∨ domainState s.dev m ≠ 0) → domainState t.dev m = domainState s.dev m) ∧
      (∀ c, s.dev.host.held = [c] → c.opcode = 0x0902 → c.relayed = false → (seatOf s.dev.host c.seat).discard = false →
        Answered c 0 t.dev) ∧
      (s.dev.host.held = [] → t.dev.host = s.dev.host) ∧ Changes [.host, .pair, .sn, .clk] s t) ∧
  (∀ (s : State), s.dev.clk.pwRequested = false → Leaves .powerEntryStart s s.dev) ∧
  (∀ (s : State), s.dev.clk.pw = 1 → s.dev.clk.pwTarget = 1 → (∀ m, m < 13 → domainState s.dev m = 2) →
    Ends .powerEntryDone s fun t => t.dev.clk.pw = 3 ∧ t.dev.th.setMv = 600 ∧ Changes [.lanes, .links, .clk, .th] s t) ∧
  (∀ (s : State), s.dev.clk.pw = 1 → s.dev.clk.pwTarget = 2 → (∀ m, m < 15 → domainState s.dev m = 2) →
    Ends .powerEntryDone s fun t => t.dev.clk.pw = 4 ∧ t.dev.th.setMv = 0 ∧ t.dev.tiles = [] ∧ t.dev.regions = [] ∧
      t.dev.mem.hbm = [] ∧ t.dev.mem.stale = [] ∧ t.dev.trail.wrote = false ∧ t.dev.image = Header.reset ∧ t.dev.trail.ckpts = [] ∧ t.dev.tio.enabled = 0 ∧
      t.dev.keep = s.dev.keep ∧ t.dev.host = s.dev.host ∧ t.dev.run = s.dev.run) ∧
  (∀ (s : State) (m : Nat), m < 13 → domainState s.dev m ≠ 2 → Leaves .powerEntryDone s s.dev) ∧
  (∀ (s : State) (w : WakeSource), s.dev.clk.wakeEn.getLsbD (wakeNo w) = false → Leaves (.wake w) s s.dev) ∧
  (∀ (s : State) (w : WakeSource), s.dev.clk.wakeEn.getLsbD (wakeNo w) = true → s.dev.clk.pwRequested = false → s.dev.clk.pw = 3 →
    Ends (.wake w) s fun t => t.dev.clk.pw = 2 ∧ t.dev.clk.lastState = 1 ∧ t.dev.clk.lastWake = 2 ^ wakeNo w ∧
      t.dev.run = s.dev.run ∧
      (∀ m, m < 13 → gatedOff s.dev.clk m = false → domainState s.dev m = 2 → domainState t.dev m = 3) ∧
      (∀ m, gatedOff s.dev.clk m = true → domainState t.dev m = domainState s.dev m) ∧
      (s.dev.clk.pwTarget ≠ 2 → ∀ m, 13 ≤ m → domainState t.dev m = domainState s.dev m) ∧ Changes [.sn, .clk] s t) ∧
  (∀ (s : State) (w : WakeSource), s.dev.clk.wakeEn.getLsbD (wakeNo w) = true → s.dev.clk.pwRequested = false → s.dev.clk.pw = 4 →
    Ends (.wake w) s fun t => t.dev.clk.pw = 2 ∧ t.dev.clk.lastState = 2 ∧ t.dev.clk.stage = 0 ∧ t.dev.run.st = .boot ∧
      t.dev.th.setMv = levelMv s.dev.th (idleMv s.dev.th) ∧
      t.dev.host = { s.dev.host with crsA := true, crsB := true } ∧ Changes [.run, .host, .sn, .trc, .clk, .th] s t) ∧
  (∀ (s : State) (w : WakeSource), s.dev.clk.wakeEn.getLsbD (wakeNo w) = true → s.dev.clk.pwRequested = false → s.dev.clk.pw = 1 →
    Ends (.wake w) s fun t => t.dev.clk.pw = 0 ∧ t.dev.clk.sleepAborted = true ∧ t.dev.clk.pwReason = 0x0932 ∧
      t.dev.clk.lastWake = 2 ^ wakeNo w ∧ (s.dev.host.held = [] → Changes [.keep, .sn, .clk, .free] s t)) ∧
  (∀ (s : State) (ns : Nat), (ns < 1000 ∨ s.dev.clk.wakeEn.getLsbD 1 = false) →
    Leaves (.wakeN ns) s { s.dev with pins := { s.dev.pins with wakeLow := decide (ns ≠ 0) } }) ∧
  (∀ (s : State) (ns : Nat), 1000 ≤ ns → s.dev.clk.wakeEn.getLsbD 1 = true → s.dev.clk.pwRequested = false → s.dev.clk.pw = 3 →
    Ends (.wakeN ns) s fun t => t.dev.clk.pw = 2 ∧ t.dev.clk.lastWake = 2 ∧ t.dev.pins = { s.dev.pins with wakeLow := true } ∧
      Changes [.sn, .clk, .pins] s t) ∧
  (∀ (s : State), s.dev.clk.wakeEn.getLsbD 2 = true → s.dev.clk.pwRequested = false → s.dev.clk.pw = 3 →
    Ends .wakeTimer s fun t => t.dev.clk.pw = 2 ∧ t.dev.clk.lastWake = 4 ∧ Changes [.sn, .clk] s t) ∧
  (∀ (s : State), s.dev.clk.pw = 0 → Leaves .wakeTimer s s.dev) ∧
  (∀ (s : State), s.dev.clk.pw = 2 → (∀ m, m < 15 → domainState s.dev m = 0 ∨ gatedOff s.dev.clk m = true) → (s.dev.clk.lastState ≠ 2 ∨ 5 ≤ s.dev.clk.stage) →
    Leaves .powerExitDone s { s.dev with clk := { s.dev.clk with pw := 0 } }) ∧
  (∀ (s : State), (s.dev.clk.pw ≠ 2 ∨ ∃ m, m < 15 ∧ domainState s.dev m ≠ 0 ∧ gatedOff s.dev.clk m = false) → Leaves .powerExitDone s s.dev) ∧
  (∀ (s : State) (x : Seat) (d : Dev), Passes (.seat x) (aClocks 0x10) s d → (x = .manager ∨ x = .board) → bit d.clk.gate 6 = true →
    d.run.st = .idle → hbmEntries d = [] →
    Ends (.hbmcRunEnWrite (.seat x) false) s fun t =>
      bit t.dev.clk.gate 6 = false ∧
      (([4, 5, 6, 7].all fun m => domainState d m = 2) = false → t.dev.clk.hbmcStopping = true) ∧
      (([4, 5, 6, 7].all fun m => domainState d m = 2) = true → d.clk.hbmcRestart = false → t.dev.clk.hbmcStopping = false) ∧
      (∀ m, 4 ≤ m → m < 8 → domainState d m = 0 → domainState t.dev m = 1) ∧
      (∀ m, (m < 4 ∨ 8 ≤ m) → domainState t.dev m = domainState d m) ∧ Changes [.host, .sn, .clk] { s with dev := d } t) ∧
  (∀ (s : State) (x : Seat) (d : Dev), Passes (.seat x) (aClocks 0x10) s d → (x = .manager ∨ x = .board) → bit d.clk.gate 6 = false →
    d.clk.hbmcStopping = false →
    Ends (.hbmcRunEnWrite (.seat x) true) s fun t =>
      bit t.dev.clk.gate 6 = true ∧
      ((d.clk.pw = 0 ∨ d.clk.pw = 2) → ∀ m, 4 ≤ m → m < 8 → domainState d m = 2 → domainState t.dev m = 3) ∧
      (d.clk.pw ≠ 0 → d.clk.pw ≠ 2 → ∀ m, domainState t.dev m = domainState d m) ∧
      (∀ m, (m < 4 ∨ 8 ≤ m) → domainState t.dev m = domainState d m) ∧ Changes [.host, .sn, .clk] { s with dev := d } t) ∧
  (∀ (s : State) (x : Seat) (d : Dev), Passes (.seat x) (aClocks 0x10) s d → (x = .manager ∨ x = .board) →
    d.clk.hbmcStopping = true →
    Ends (.hbmcRunEnWrite (.seat x) true) s fun t =>
      t.dev.clk = { d.clk with hbmcRestart := true } ∧ (∀ m, domainState t.dev m = domainState d m) ∧
      (∀ m, 4 ≤ m → m < 8 → domainState d m = 1 → tget 0 t.dev.sn.domains m = 0b101) ∧
      Changes [.sn, .clk] { s with dev := d } t) ∧
  (∀ (s : State) (w : WakeSource), s.dev.clk.wakeEn.getLsbD (wakeNo w) = true → s.dev.clk.pwRequested = true → s.dev.clk.pw = 3 →
    s.dev.host.held = [] →
    Ends (.wake w) s fun t => t.dev.clk.pwRequested = false ∧ t.dev.clk.pw = 2 ∧ t.dev.clk.sleepAborted = true ∧
      t.dev.clk.pwReason = 0x0932 ∧ t.dev.clk.lastState = 1 ∧ t.dev.clk.lastWake = 2 ^ wakeNo w ∧
      (∀ m, m < 13 → gatedOff s.dev.clk m = false → domainState s.dev m = 2 → domainState t.dev m = 3) ∧
      Changes [.keep, .sn, .clk, .free] s t) ∧
  (∀ (s : State) (w : WakeSource) (c : Cmd), s.dev.clk.wakeEn.getLsbD (wakeNo w) = true → s.dev.clk.pwRequested = true →
    s.dev.clk.pw = 0 → s.dev.host.held = [c] → c.opcode = 0x0902 → c.relayed = false → (seatOf s.dev.host c.seat).discard = false →
    Ends (.wake w) s fun t => Answered c 0x0932 t.dev ∧ t.dev.host.held = [] ∧ t.dev.clk.pwRequested = false ∧ t.dev.clk.pw = 0 ∧
      t.dev.clk.sleepAborted = true ∧ Changes [.host, .keep, .sn, .clk, .free] s t)

/-- R362 to R366: Thermos. A tick of an idle module takes the readings in and sets the idle level within the rails' bounds, but for a rise that a rail
at 255 A or a latched throttle forbids; SLEEP and BOOT keep the level, the other states but RUNNING's go to 0.75 V where no pace is
aimed at; while the hub's clock stands Thermos does nothing. R378: while a test-control instruction is in effect no level is commanded. A throttle latches with a junction at THROTTLE_C and is counted once, steps the rails down 25 mV while the power is above its limit,
and clears below 85 °C. A thermal trip and a rail fault take a running module to FAULTED; PMB_ALERT names the dies. The wear ledger moves on.
R362: in every state a tick with the hub's clock running takes the readings in; PMB_ALERT takes a running module to FAULTED.
What follows the model's choices: log entries 8, 60, 64, 92. -/
def Obligations.Thermos : Prop :=
  (∀ (s : State) (r : ThermosReading), nocOn s.dev.clk = true → s.dev.clk.pw ≠ 3 →
    (s.dev.run.st = .idle ∨ s.dev.run.st = .loaded ∨ s.dev.run.st = .stopped) →
    (idleMv s.dev.th ≤ s.dev.th.setMv ∨ (s.dev.th.throttling = false ∧ railLimited (readRails r s.dev).th = false)) →
    Ends (.thermosTick r) s fun t =>
      t.dev.th.setMv = levelMv t.dev.th (idleMv s.dev.th) ∧
      (jtagTest s.dev = false → ∀ a ∈ railAddrs s.dev.th, tget 0 t.dev.th.vout a = levelMv t.dev.th (idleMv s.dev.th)) ∧
      (jtagTest s.dev = true → t.dev.th.vout = s.dev.th.vout) ∧
      t.dev.th.powerW = r.hubW + r.rail0.poutW + r.rail1.poutW + r.rail2.poutW + r.rail3.poutW ∧
      t.dev.th.hubTemp = r.hubTemp ∧ t.dev.th.hbmTemp = r.hbmTemp ∧
      t.dev.th.aboveFor = (s.dev.th.aboveFor + b2n (decide (800 < s.dev.th.setMv))) % 1000 ∧
      t.dev.run.st = s.dev.run.st ∧ t.dev.run.committed = s.dev.run.committed ∧ Changes [.run, .th] s t) ∧
  (∀ (s : State) (r : ThermosReading), nocOn s.dev.clk = true → s.dev.clk.pw ≠ 3 →
    (s.dev.run.st = .idle ∨ s.dev.run.st = .loaded ∨ s.dev.run.st = .stopped) → s.dev.th.setMv < idleMv s.dev.th →
    (railLimited (readRails r s.dev).th = true ∨
      (s.dev.th.throttling = true ∧ powerLimit s.dev.th < r.hubW + r.rail0.poutW + r.rail1.poutW + r.rail2.poutW + r.rail3.poutW)) →
    Ends (.thermosTick r) s fun t => t.dev.th.setMv = levelMv t.dev.th s.dev.th.setMv ∧ Changes [.run, .th] s t) ∧
  (∀ (s : State) (r : ThermosReading), nocOn s.dev.clk = true → (s.dev.clk.pw = 3 ∨ s.dev.run.st = .boot) →
    Ends (.thermosTick r) s fun t => t.dev.th.setMv = s.dev.th.setMv ∧ t.dev.th.vout = s.dev.th.vout ∧ Changes [.run, .th] s t) ∧
  (∀ (s : State) (r : ThermosReading), nocOn s.dev.clk = true → s.dev.clk.pw ≠ 3 →
    (s.dev.run.st = .loading ∨ s.dev.run.st = .rewinding ∨ s.dev.run.st = .stranded ∨
      (s.dev.run.st = .faulted ∧ s.dev.run.fault ≠ 0x0921)) →
    paceAim s.dev.run.paceTargetUse s.dev.run.paceCapUse = 0 → 750 ≤ s.dev.th.setMv →
    Ends (.thermosTick r) s fun t => t.dev.th.setMv = levelMv t.dev.th 750 ∧ Changes [.run, .th] s t) ∧
  (∀ (s : State) (r : ThermosReading), nocOn s.dev.clk = true → s.dev.clk.pw ≠ 3 → s.dev.run.st = .faulted →
    s.dev.run.fault = 0x0921 → idleMv s.dev.th ≤ s.dev.th.setMv →
    Ends (.thermosTick r) s fun t => t.dev.th.setMv = levelMv t.dev.th (idleMv s.dev.th) ∧ Changes [.run, .th] s t) ∧
  (∀ (s : State) (r : ThermosReading), nocOn s.dev.clk = false → Leaves (.thermosTick r) s s.dev) ∧
  (∀ (s : State), nocOn s.dev.clk = true → s.dev.th.throttling = false → junctionAt s.dev.th (throttleAt s.dev.th) = true →
    Leaves .throttle s { s.dev with
      th := { s.dev.th with throttling := true, throttles := s.dev.th.throttles + 1 }
      run := { s.dev.run with pacePower := true
                              paceWear := s.dev.run.paceWear || (atCeiling s.dev.th && wearLowest s.dev.th)
                              paceVolt := s.dev.run.paceVolt || (atCeiling s.dev.th && !wearLowest s.dev.th) } }) ∧
  (∀ (s : State), nocOn s.dev.clk = true → s.dev.th.throttling = true → min s.dev.th.limitW 850 < s.dev.th.powerW →
    Ends .throttleStep s fun t => t.dev.th.setMv = max 600 (s.dev.th.setMv - 25) ∧
      (jtagTest s.dev = false → ∀ a ∈ railAddrs s.dev.th, tget 0 t.dev.th.vout a = max 600 (s.dev.th.setMv - 25)) ∧
      (jtagTest s.dev = true → t.dev.th.vout = s.dev.th.vout) ∧
      t.dev.run = { s.dev.run with paceThermal := true } ∧ Changes [.run, .th] s t) ∧
  (∀ (s : State), (nocOn s.dev.clk = false ∨ s.dev.th.throttling = false ∨ s.dev.th.powerW ≤ min s.dev.th.limitW 850) → Leaves .throttleStep s s.dev) ∧
  (∀ (s : State), nocOn s.dev.clk = true → junctionAt s.dev.th (16 * 85) = false →
    Leaves .throttleClear s { s.dev with th := { s.dev.th with throttling := false } }) ∧
  (∀ (s : State), nocOn s.dev.clk = true → Leaves .tempWarning s { s.dev with th := { s.dev.th with warn := junctionAt s.dev.th (warnAt s.dev.th) } }) ∧
  (∀ (s : State), nocOn s.dev.clk = false → Leaves .throttle s s.dev ∧ Leaves .throttleClear s s.dev ∧ Leaves .tempWarning s s.dev) ∧
  (∀ (s : State), s.dev.run.st = .running →
    Ends .thermalTrip s fun t =>
      t.dev.run.st = .faulted ∧ Raises 0x017 s t ∧ t.dev.run.fault = 0x0921 ∧ t.dev.th.reason = 0x0921 ∧
      t.dev.th.setMv = levelMv s.dev.th (idleMv s.dev.th) ∧ t.dev.pins.thermtrip = true ∧ t.dev.run.committed = s.dev.run.committed) ∧
  (∀ (s : State), s.dev.run.st = .idle →
    Ends .thermalTrip s fun t =>
      t.dev.th.reason = 0x0921 ∧ t.dev.th.setMv = levelMv s.dev.th (idleMv s.dev.th) ∧ t.dev.pins.thermtrip = true ∧
      t.dev.keep.logNext = s.dev.keep.logNext + 1 ∧ Changes [.keep, .th, .pins, .free] s t) ∧
  (∀ (s : State) (die : Fin 4), s.dev.run.st = .running →
    Ends (.railFault die) s fun t =>
      t.dev.run.st = .faulted ∧ Raises 0x017 s t ∧ t.dev.run.fault = 0x0920 ∧ t.dev.th.railFault = true ∧ t.dev.th.reason = 0x0920 ∧
      t.dev.run.committed = s.dev.run.committed) ∧
  (∀ (s : State) (die : Fin 4), s.dev.run.st = .idle →
    Ends (.railFault die) s fun t =>
      t.dev.th.railFault = true ∧ t.dev.th.reason = 0x0920 ∧ t.dev.keep.logNext = s.dev.keep.logNext + 1 ∧
      Changes [.keep, .th, .free] s t) ∧
  (∀ (s : State) (f : BitVec 4), s.dev.run.st = .idle → f ≠ 0 →
    Ends (.pmbAlert f) s fun t =>
      t.dev.th.railFault = true ∧ t.dev.th.reason = 0x0920 ∧
      t.dev.keep.logNext = s.dev.keep.logNext + (bitsOf 4 f.toNat).length ∧ Changes [.keep, .th, .free] s t) ∧
  (∀ (s : State), Leaves (.pmbAlert 0) s s.dev) ∧
  (∀ (s : State), keepOn s.dev.clk = true → s.dev.th.wearSeconds ≤ 7200000 →
    Leaves .wearLedgerWrite s { s.dev with keep := { s.dev.keep with
      ledgerWord := (s.dev.keep.ledgerWord + 1) % 1024
      ledger := tset 0 s.dev.keep.ledger ((s.dev.keep.ledgerWord + 1) % 1024) (w64 s.dev.th.wearSeconds) } }) ∧
  (∀ (s : State), keepOn s.dev.clk = false → Leaves .wearLedgerWrite s s.dev) ∧
  (∀ (s : State), keepOn s.dev.clk = true → 7200000 < s.dev.th.wearSeconds →
    Ends .wearLedgerWrite s fun t => t.dev.th.wearCapped = true ∧ Changes [.keep, .th] s t) ∧
  (∀ (s : State) (r : ThermosReading), nocOn s.dev.clk = true →
    Ends (.thermosTick r) s fun t =>
      t.dev.th.powerW = r.hubW + r.rail0.poutW + r.rail1.poutW + r.rail2.poutW + r.rail3.poutW ∧
      t.dev.th.hubTemp = r.hubTemp ∧ t.dev.th.hbmTemp = r.hbmTemp ∧
      t.dev.th.warn = ([r.rail0, r.rail1, r.rail2, r.rail3].any fun x => decide (warnAt s.dev.th ≤ x.temp.toInt)) ∧
      t.dev.th.aboveFor = (s.dev.th.aboveFor + b2n (decide (800 < s.dev.th.setMv))) % 1000 ∧
      t.dev.th.throttling = s.dev.th.throttling ∧ t.dev.run.st = s.dev.run.st ∧ t.dev.run.committed = s.dev.run.committed ∧
      Changes [.run, .th, .free] s t) ∧
  (∀ (s : State) (f : BitVec 4), s.dev.run.st = .running → f ≠ 0 →
    Ends (.pmbAlert f) s fun t =>
      t.dev.run.st = .faulted ∧ Raises 0x017 s t ∧ t.dev.run.fault = 0x0920 ∧ t.dev.th.railFault = true ∧ t.dev.th.reason = 0x0920 ∧
      t.dev.run.committed = s.dev.run.committed)

/-- R370 to R378: pins. PWR_OK low makes pins and lanes idle; a supply that returns waits for the next order 5, one that is lost is logged. The
parallel slave port gathers halfwords into words and reads them back; the serial port reaches the service network. A test
instruction loads as BYPASS outside BOOT and IDLE, and has no effect there; in effect, the cells say what every signal land drives;
a serial access that has not completed shifts out 0x00; IDCODE shows the module's word.
What follows the model's choices: log entries 73, 74, 100, 101. -/
def Obligations.PinsAndPorts : Prop :=
  (∀ (s : State),
    Ends .pwrOkFall s fun t => t.dev.pins.pwrOk = false ∧ t.dev.pins.lanesIdle = true ∧ t.dev.tio.highZ = true ∧
      Changes [.tio, .lanes, .links, .pins] s t) ∧
  (∀ (s : State) (b : Fin 8) (v : BitVec 2), (v = 1 ∨ v = 2) → validSupply (vddioOf s.dev.tio b) = false →
    Leaves (.tioVddioChange b v) s { s.dev with tio := { s.dev.tio with
      vddio := tset 1 s.dev.tio.vddio b v, wait := setBit s.dev.tio.wait b true } }) ∧
  (∀ (s : State) (b : Fin 8) (v : BitVec 2), (v = 1 ∨ v = 2) → validSupply (vddioOf s.dev.tio b) = true →
    Leaves (.tioVddioChange b v) s { s.dev with tio := { s.dev.tio with vddio := tset 1 s.dev.tio.vddio b v } }) ∧
  (∀ (s : State) (b : Fin 8) (v : BitVec 2), (v = 0 ∨ v = 3) → validSupply (vddioOf s.dev.tio b) = true →
    Ends (.tioVddioChange b v) s fun t => vddioOf t.dev.tio b = v ∧ t.dev.keep.logNext = s.dev.keep.logNext + 1 ∧
      Changes [.tio, .keep, .free] s t) ∧
  (∀ (s : State) (b : Fin 8) (v : BitVec 2), (v = 0 ∨ v = 3) → validSupply (vddioOf s.dev.tio b) = false →
    Leaves (.tioVddioChange b v) s { s.dev with tio := { s.dev.tio with vddio := tset 1 s.dev.tio.vddio b v } }) ∧
  (∀ (s : State) (a : Nat) (x : BitVec 16) (env : PinEnv), a < 0x2000 → a % 8 / 2 ≠ 3 →
    Leaves (.pspWrite a x env) s { s.dev with host := { s.dev.host with
      pspHalf := tset 0 s.dev.host.pspHalf (4 * (a / 8) + a % 8 / 2) x } }) ∧
  (∀ (s : State) (a : Nat) (x : BitVec 16) (env : PinEnv), a < 0x2000 → a % 8 / 2 = 3 →
    let r := bar0Write .board .psp (8 * (a / 8)) (pspGather s.dev.host.pspHalf (a / 8) x) env s.irq
      { s.dev with host := { s.dev.host with pspHalf := [] } }
    LeavesIrq (.pspWrite a x env) s r.1 r.2) ∧
  (∀ (s : State) (a : Nat) (x : BitVec 16) (env : PinEnv), 0x2000 ≤ a → a < 0x3000 →
    Leaves (.pspWrite a x env) s (intake .board .psp [x.setWidth 8, (x >>> 8).setWidth 8] s.dev)) ∧
  (∀ (s : State) (a : Nat), a < 0x2000 → a % 8 / 2 = 0 →
    let r := bar0Read .board (8 * (a / 8)) s.irq s.dev
    LeavesIrq (.pspRead a) s r.2.1 { r.2.2 with host := { r.2.2.host with
      pspRead := some (a / 8, r.1), pspAnswer := r.1.setWidth 16 } }) ∧
  (∀ (s : State) (a : Nat) (w : W64), a < 0x2000 → a % 8 / 2 ≠ 0 → s.dev.host.pspRead = some (a / 8, w) →
    Leaves (.pspRead a) s { s.dev with host := { s.dev.host with pspAnswer := (w >>> (16 * (a % 8 / 2))).setWidth 16 } }) ∧
  (∀ (s : State) (a : Nat), a < 2 ^ 40 →
    let r := snAccess .spi .board a .read PinEnv.none s.irq s.dev
    LeavesIrq (.spiRead a) s r.irq (
      if r.dev.clk.stage < s.dev.clk.stage then r.dev
      else if 19 ≤ r.status then { r.dev with host := { r.dev.host with answer := { Answer.reset with shifted := [0] } } }
      else if r.status = 18 then { r.dev with host := { r.dev.host with answer := { Answer.reset with unsupported := true } } }
      else if r.status = 0 then { r.dev with host := { r.dev.host with answer :=
        { Answer.reset with data := r.data, shifted := [0xA5, 0] ++ bytesOf 8 r.data.toNat } } }
      else
        let w := takeFreeWord (updSeat r.dev .board fun S => { S with snErr := true })
        { w.2 with host := { w.2.host with answer := { Answer.reset with
          status := if r.status < 16 then r.status else 0, ignored := r.status = 16, denied := r.status = 17
          shifted := [0xA5, if r.status = 16 then 0x40 else if r.status = 17 then 0x80 else BitVec.ofNat 8 r.status] ++
            bytesOf 8 w.1.toNat } } })) ∧
  (∀ (s : State) (a : Nat) (v : W64) (env : PinEnv), a < 2 ^ 40 →
    let r := snAccess .spi .board a (.write v 255) env s.irq s.dev
    LeavesIrq (.spiWrite a v env) s r.irq (if r.dev.clk.stage < s.dev.clk.stage ∨ r.status = 18 then r.dev
      else if 19 ≤ r.status then { r.dev with host := { r.dev.host with spiOpen := true } }
      else
        let e := if r.status = 0 then r.dev else updSeat r.dev .board fun S => { S with snErr := true }
        { e with host := { e.host with
          spiOpen := false, spiStatus := if r.status = 16 then 0x40 else if r.status = 17 then 0x80 else r.status } })) ∧
  (∀ (s : State), s.dev.clk.pw ≠ 4 → 1 ≤ s.dev.clk.stage → s.dev.host.spiStatus < 256 → s.dev.host.spiOpen = false →
    nocOn s.dev.clk = true →
    Leaves .spiWriteStatus s { s.dev with host := { s.dev.host with answer :=
      { Answer.reset with data := word [(8, 8, s.dev.host.spiStatus), (0, 8, 0xA5)]
                          shifted := [0xA5, BitVec.ofNat 8 s.dev.host.spiStatus] } } }) ∧
  (∀ (s : State), s.dev.clk.pw ≠ 4 → 1 ≤ s.dev.clk.stage → (s.dev.host.spiOpen = true ∨ nocOn s.dev.clk = false) →
    Leaves .spiWriteStatus s { s.dev with host := { s.dev.host with answer := { Answer.reset with shifted := [0] } } }) ∧
  (∀ (s : State), (s.dev.clk.pw = 4 ∨ s.dev.clk.stage < 1) →
    Leaves .spiWriteStatus s { s.dev with host := { s.dev.host with answer := { Answer.reset with unsupported := true } } }) ∧
  (∀ (env : PinEnv) (a : Nat) (v : W64), a < 2 ^ 40 →
    spiFrame env (0x03 :: (bytesOf 5 a).reverse) = some (.spiRead a) ∧
    spiFrame env (0x02 :: (bytesOf 5 a).reverse ++ bytesOf 8 v.toNat) = some (.spiWrite a v env) ∧
    spiFrame env [0x05] = some .spiWriteStatus) ∧
  (∀ (env : PinEnv) (l : List Byte), (l.length < 5 → spiFrame env (0x03 :: l) = none) ∧
    (l.length < 13 → spiFrame env (0x02 :: l) = none)) ∧
  (∀ (s : State),
    let j (x : Jtag) : Dev := followPins { s.dev with pins := { s.dev.pins with
      jtag := if s.dev.run.st = .boot ∨ s.dev.run.st = .idle then x else .bypass } }
    Leaves .extest s (j .extest) ∧ Leaves .extestPulse s (j .extestPulse) ∧ Leaves .extestTrain s (j .extestTrain) ∧
    Leaves .highz s (j .highz) ∧ Leaves .clamp s (j .clamp)) ∧
  (∀ (s : State),
    Ends .samplePreload s (fun t => t.dev.pins.jtag = .samplePreload ∧
      (∀ i, i < 256 → (driving { s.dev with pins := t.dev.pins }).getLsbD i = true →
        t.dev.pins.cellIn.getLsbD i = s.dev.tio.out.getLsbD i) ∧ t.dev.pins.wakeLow = s.dev.pins.wakeLow ∧
      t.dev.pins.thermtrip = s.dev.pins.thermtrip ∧ t.dev.pins.pwrOk = s.dev.pins.pwrOk ∧
      t.dev.pins.lanesIdle = s.dev.pins.lanesIdle ∧
      t.dev.tio = (followPins { s.dev with pins := { s.dev.pins with jtag := .samplePreload } }).tio ∧ Changes [.tio, .pins, .free] s t) ∧
    Leaves .bypass s (followPins { s.dev with pins := { s.dev.pins with jtag := .bypass } })) ∧
  (∀ (s : State) (x : Jtag), s.dev.tio.highZ = false →
    (∀ i, i < 256 → supplied s.dev.tio i = true) → s.dev.tio.wait = 0 →
    let j : Dev := { s.dev with pins := { s.dev.pins with jtag := x } }
    ((s.dev.run.st = .boot ∨ s.dev.run.st = .idle) →
     ((x = .extest ∨ x = .extestPulse ∨ x = .extestTrain ∨ x = .clamp) →
      driving j = s.dev.pins.cellEn ∧ outLevel j = s.dev.pins.cellOut ∧ jtagTest j = true ∧
        (∀ i, landBit s.dev.pins.landEn i = false → landSignal j i = .off) ∧
        ∀ i, landBit s.dev.pins.landEn i = true → landSignal j i =
          if acLand i = true ∧ x = .extestPulse then .pulse (landBit s.dev.pins.landOut i)
          else if acLand i = true ∧ x = .extestTrain then .train (landBit s.dev.pins.landOut i)
          else .level (landBit s.dev.pins.landOut i)) ∧
     (x = .highz → driving j = 0 ∧ jtagTest j = true ∧ ∀ i, landSignal j i = .off)) ∧
    ((x = .bypass ∨ x = .idcode ∨ x = .samplePreload ∨ (s.dev.run.st ≠ .boot ∧ s.dev.run.st ≠ .idle)) →
      (∀ i, landSignal j i = .functional) ∧
      driving j = s.dev.tio.enabled &&& s.dev.tio.outEn ∧ outLevel j = s.dev.tio.out ∧ jtagTest j = false)) ∧
  (jtagOpcode 0 = .extest ∧ jtagOpcode 1 = .idcode ∧ jtagOpcode 2 = .samplePreload ∧ jtagOpcode 3 = .extestPulse ∧
    jtagOpcode 4 = .extestTrain ∧ jtagOpcode 5 = .highz ∧ jtagOpcode 6 = .clamp ∧
    ∀ op : Byte, 7 ≤ op.toNat → jtagOpcode op = .bypass) ∧
  (∀ (s : State),
    let d : Dev := { followPins { s.dev with pins := { s.dev.pins with jtag := .idcode } } with host := { s.dev.host with answer :=
      { Answer.reset with data := word [(28, 4, s.dev.fuse.stepping),
          (12, 16, if s.dev.fuse.zpe393 then 0x3930 else 0x5240), (1, 11, 0x35A), (0, 1, 1)] } } }
    Leaves .idcode s d ∧ Leaves .tapReset s d)

/-- R52, R53: the check field of a step word and of a commit-table entry. Its low bits are the XOR of the column codes of the set data
bits, its top bit makes the parity of the whole word even, and the data stands below it. -/
def Obligations.CheckFields : Prop :=
  let codes : List Nat := [3, 5, 6, 7] ++ (List.range 7).map (· + 9) ++ (List.range 15).map (· + 17) ++ (List.range 31).map (· + 33)
    ++ (List.range 23).map (· + 65)
  (∀ p : BitVec 80,
    let low := codes.zipIdx.foldl (fun x (c, i) => if p.getLsbD i then x ^^^ c else x) 0
    (stepEncode p).toNat % 2 ^ 80 = p.toNat ∧ (stepEncode p).toNat / 2 ^ 80 % 2 ^ 7 = low ∧
    (stepEncode p).getLsbD 87 = (parity 80 p.toNat ^^ parity 7 low) ∧ parity 88 (stepEncode p).toNat = false) ∧
  (∀ p : BitVec 24,
    let low := (codes.take 24).zipIdx.foldl (fun x (c, i) => if p.getLsbD i then x ^^^ c else x) 0
    (commitEncode p).toNat % 2 ^ 24 = p.toNat ∧ (commitEncode p).toNat / 2 ^ 24 % 2 ^ 5 = low ∧
    parity 30 (commitEncode p).toNat = false) ∧
  (codes.take 24).head? = some 3 ∧ (codes.take 24).getLast? = some 29 ∧ 30 ∉ codes.take 24 ∧ 31 ∉ codes.take 24

/-- R54: on each fetch, of a step word of 88 bits and of a commit-table entry of 30, the syndrome S and the parity P decide as Table 3.3
states: what was stored as it was meant is used, any single bit is corrected, and any two bits in error are uncorrectable. A correction counts in
TILE_ECC_CORRECTED and the corrected word is used; an uncorrectable word holds its cluster with ECC_FATAL and tears its region, and its design cycle is
abandoned: the module drains toward STOPPED with MID_CYCLE = 1. -/
def Obligations.FetchCorrects : Prop :=
  let codes : List Nat := [3, 5, 6, 7] ++ (List.range 7).map (· + 9) ++ (List.range 15).map (· + 17) ++ (List.range 31).map (· + 33)
    ++ (List.range 23).map (· + 65)
  (∀ w : BitVec 88,
    let p := w.toNat % 2 ^ 80
    let S := w.toNat / 2 ^ 80 % 2 ^ 7 ^^^ codes.zipIdx.foldl (fun x (c, i) => if p.testBit i then x ^^^ c else x) 0
    let P := parity 88 w.toNat
    (P = false → S = 0 → stepFetch w = .ok p) ∧ (P = true → S = 0 → stepFetch w = .fixed p) ∧
    (∀ j, j < 7 → P = true → S = 2 ^ j → stepFetch w = .fixed p) ∧
    (∀ i, i < 80 → P = true → S = codes.getD i 0 → stepFetch w = .fixed (p ^^^ 2 ^ i)) ∧
    (P = true → 88 ≤ S → stepFetch w = .bad) ∧ (P = false → S ≠ 0 → stepFetch w = .bad)) ∧
  (∀ w : BitVec 32,
    let p := w.toNat % 2 ^ 24
    let S := w.toNat / 2 ^ 24 % 2 ^ 5 ^^^ (codes.take 24).zipIdx.foldl (fun x (c, i) => if p.testBit i then x ^^^ c else x) 0
    let P := parity 30 w.toNat
    (P = false → S = 0 → commitFetch w = .ok p) ∧ (P = true → S = 0 → commitFetch w = .fixed p) ∧
    (∀ j, j < 5 → P = true → S = 2 ^ j → commitFetch w = .fixed p) ∧
    (∀ i, i < 24 → P = true → S = codes.getD i 0 → commitFetch w = .fixed (p ^^^ 2 ^ i)) ∧
    (P = true → (S = 30 ∨ S = 31) → commitFetch w = .bad) ∧ (P = false → S ≠ 0 → commitFetch w = .bad)) ∧
  (∀ p : BitVec 80, stepFetch (stepEncode p) = .ok p.toNat ∧
    (∀ i, i < 88 → stepFetch (stepEncode p ^^^ BitVec.twoPow 88 i) = .fixed p.toNat) ∧
    (∀ i j, i < 88 → j < 88 → i ≠ j → stepFetch (stepEncode p ^^^ BitVec.twoPow 88 i ^^^ BitVec.twoPow 88 j) = .bad)) ∧
  (∀ p : BitVec 24, commitFetch (commitEncode p) = .ok p.toNat ∧
    (∀ i, i < 30 → commitFetch (commitEncode p ^^^ BitVec.twoPow 32 i) = .fixed p.toNat) ∧
    (∀ i j, i < 30 → j < 30 → i ≠ j → commitFetch (commitEncode p ^^^ BitVec.twoPow 32 i ^^^ BitVec.twoPow 32 j) = .bad)) ∧
  (∀ (s : State) (p : Fin 528) (c : Fin 16) (ws : List (Nat × StepW × Bool)),
    let C := clusterOf (tileOf s.dev p) c
    cycleOpen s.dev = true → tileActive s.dev p = true → C.done = false → C.ecc = none → C.fetched = false →
    fetchStep (tileOf s.dev p) c C.step 64 = .ok ws →
    Ends (.clusterStep p c) s fun t =>
      (tileOf t.dev p).eccCorrected = (tileOf s.dev p).eccCorrected + w64 (ws.filter (·.2.2)).length ∧
      t.dev.run.committed = s.dev.run.committed) ∧
  (∀ (s : State) (p : Fin 528) (c : Fin 16) (b : Nat),
    let C := clusterOf (tileOf s.dev p) c
    cycleOpen s.dev = true → tileActive s.dev p = true → C.done = false → C.ecc = none →
    fetchStep (tileOf s.dev p) c C.step 64 = .error b →
    Ends (.clusterStep p c) s fun t =>
      (clusterOf (tileOf t.dev p) c).ecc = some (b, 0) ∧ (clusterOf (tileOf t.dev p) c).step = C.step ∧ (tileOf t.dev p).eccFatal = true ∧
      (regionOf t.dev (tileRegion s.dev.fuse p)).st = .torn ∧
      ((regionOf s.dev (tileRegion s.dev.fuse p)).st ≠ .torn → (regionOf s.dev (tileRegion s.dev.fuse p)).tornPend = false →
        (regionOf t.dev (tileRegion s.dev.fuse p)).tornReason = 0x0252) ∧
      t.dev.run.st = .stopping ∧ t.dev.run.draining = true ∧ t.dev.run.midCycle = true ∧ t.dev.run.set.getLsbD cREGION_TORN = true ∧
      t.dev.run.committed = s.dev.run.committed) ∧
  (∀ (s : State) (env : PinEnv), cycleOpen s.dev = true → s.dev.clk.frozen = false → allDone s.dev = true → markersIn s.dev = true →
    let d := flushReplay (drainMesh s.dev)
    replayLeft d = false →
    (badCommits d = [] → ∀ p : Fin 528, tileActive s.dev p = true → Ends (.barrier env) s fun t =>
      (tileOf t.dev p).eccCorrected = (tileOf s.dev p).eccCorrected
        + w64 ((List.range 16).map fun c => (fixedCommits (tileOf s.dev p) c s.dev.image.l).length).sum) ∧
    (badCommits d ≠ [] → Ends (.barrier env) s fun t =>
      (∀ x ∈ badCommits d, (clusterOf (tileOf t.dev x.1) x.2.1).ecc = some (x.2.2.1, 0x800 + x.2.2.2) ∧
        (tileOf t.dev x.1).eccFatal = true ∧ (regionOf t.dev (tileRegion s.dev.fuse x.1)).st = .torn) ∧
      t.dev.run.st = .stopping ∧ t.dev.run.draining = true ∧ t.dev.run.midCycle = true ∧ t.dev.run.set.getLsbD cREGION_TORN = true ∧
      t.dev.run.committed = s.dev.run.committed))

/-- R324: a SWAP written while the network drains is held and shows as pending; it is applied when the drain ends, and with SN_AFFECT all zero a SWAP changes the banks and blocks no node.
The model's choices, not the rule's words: the held SWAP is applied before what waits is injected again, and the event of the drain's end
comes from node 0x40F (log entry 100). -/
def Obligations.SwapHeld : Prop :=
  (∀ (s : State) (m : Master) (v : W64) (d : Dev), Passes m (aSn 0) s d → netWriter m = true → bit v 0 = true → d.sn.draining = true →
    Ends (.snEpochSwap m v) s fun t =>
      t.dev.sn.swapPending = true ∧ bit (snRegRead t.dev.sn 0) 3 = true ∧ t.dev.sn.current = d.sn.current ∧
      t.dev.sn.draining = true ∧ Changes [.host, .sn] { s with dev := d } t) ∧
  (∀ (s : State), s.dev.sn.draining = true → s.dev.sn.swapPending = true →
    (s.dev.sn.owed.all fun p => p.epoch = s.dev.sn.current) = true →
    (s.dev.events.all fun e => e.sent ≠ some (!s.dev.sn.current)) = true →
    let r := retryWaiting s.irq { s.dev with
      events := s.dev.events ++ [⟨0x031, true, true, 1024, 0x40F, some s.dev.sn.current⟩]
      sn := { s.dev.sn with swapPending := false, current := !s.dev.sn.current, draining := true } }
    LeavesIrq .epochDrainDone s r.1 r.2) ∧
  (∀ (s : State) (m : Master) (v : W64) (d : Dev), Passes m (aSn 0) s d → netWriter m = true → bit v 0 = true → d.sn.draining = false →
    (∀ n, tget 0 d.sn.affect n = 0) →
    Ends (.snEpochSwap m v) s fun t =>
      t.dev.sn.current = !d.sn.current ∧ (∀ node, blockedTo t.dev node = false) ∧ Changes [.host, .sn] { s with dev := d } t)

/-- Every command completes in a next state and leaves the queue as it is: the model stops on none. R327: whichever command changes a line of
Table 15.9, its EVENT packet joins those on their way, but for a reset.
What follows the model's choices: log entry 8. -/
def Obligations.EveryCommandCompletes : Prop :=
  (∀ (c : Instr) (s : State), ∃ t, exec c s = .next t ∧ t.pending = s.pending) ∧
  (∀ (c : Instr) (s : State), Ends c s fun t =>
    s.dev.clk.stage ≤ t.dev.clk.stage ∨ t.dev.clk.pw ≠ 0 → ∃ ev, t.dev.events = ev ++ lineEvents s.dev t.dev)

/-- R330, R331: the claims of every target stay strictly nested by priority, whatever command runs.
What follows the model's choices: log entry 55. -/
def Obligations.ClaimsStayNested : Prop := ∀ (s t : State), claimsOk s.irq → step s = .next t → claimsOk t.irq

/-- What reset leaves: BOOT with no stage passed, no committed cycle, no command, no claim, and the settings that the register tables give.
With no command waiting, in any state, a step lets one TSC cycle pass, in which the count rises by one or takes the value that TSC_SET wrote;
while every domain but WAKE stays stopped it changes nothing (the model's choice, log entry 1). -/
def Obligations.ResetState : Prop :=
  let s := State.reset
  s.pending = [] ∧ claimsOk s.irq ∧ s.dev.run.st = .boot ∧ s.dev.run.committed = 0 ∧ s.dev.run.reqs = 0 ∧ s.dev.clk.stage = 0 ∧
  s.dev.clk.source = false ∧ s.dev.clk.wakeEn = 1 ∧ s.dev.host.order = [] ∧ s.dev.host.longKind = 0 ∧
  s.dev.host.run.prot = 0xF9F0_0000_FFFF_FFFF ∧ s.dev.host.diag.prot = 0x10B0_0000_0000_0000 ∧
  s.dev.host.board.prot = 0xC630_0000_FFFF_FFFF ∧ s.dev.sys.margin = 0x4000 ∧ s.dev.trc.flushUs = 100 ∧ s.dev.th.limitW = 850 ∧
  s.dev.th.maxMv = 850 ∧ s.dev.th.idleMv = 650 ∧ s.dev.th.throttleC = 105 ∧ Memory.wf s.dev.mem.hbm = true ∧
  (∃ t, step s = .next t ∧ t.pending = [] ∧ t.dev.clk.tsc = s.dev.clk.tsc + 1 ∧ t.dev.run = s.dev.run ∧ t.irq = s.irq) ∧
  (∀ (x : State), x.pending = [] → x.dev.clk.frozen = false → x.dev.clk.tscNew = none →
    ∃ t, step x = .next t ∧ t.pending = [] ∧ t.dev.clk.tsc = (x.dev.clk.tsc + 1) % 2 ^ 64) ∧
  (∀ (x : State) (n : Nat), x.pending = [] → x.dev.clk.frozen = false → x.dev.clk.tscNew = some n →
    ∃ t, step x = .next t ∧ t.pending = [] ∧ t.dev.clk.tsc = n ∧ t.dev.clk.tscNew = none) ∧
  (∀ (x : State), x.pending = [] → x.dev.clk.frozen = true → step x = .next x)
end

