-- ==== Sys2Proof/Laws/State.lean ====
section
/-! SUPPORT. What each shared update changes: one lemma for each part of the module and each update, true by computation. -/

namespace Sys2Proof.Machine

/-! ## `updTile` -/

@[simp] theorem updTile_fuse (d : Dev) (p : Nat) (f : Tile → Tile) : (updTile d p f).fuse = d.fuse := rfl
@[simp] theorem updTile_tiles (d : Dev) (p : Nat) (f : Tile → Tile) : (updTile d p f).tiles = tupd Tile.reset d.tiles p f := rfl
@[simp] theorem updTile_exch (d : Dev) (p : Nat) (f : Tile → Tile) : (updTile d p f).exch = d.exch := rfl
@[simp] theorem updTile_tio (d : Dev) (p : Nat) (f : Tile → Tile) : (updTile d p f).tio = d.tio := rfl
@[simp] theorem updTile_mem (d : Dev) (p : Nat) (f : Tile → Tile) : (updTile d p f).mem = d.mem := rfl
@[simp] theorem updTile_regions (d : Dev) (p : Nat) (f : Tile → Tile) : (updTile d p f).regions = d.regions := rfl
@[simp] theorem updTile_image (d : Dev) (p : Nat) (f : Tile → Tile) : (updTile d p f).image = d.image := rfl
@[simp] theorem updTile_ld (d : Dev) (p : Nat) (f : Tile → Tile) : (updTile d p f).ld = d.ld := rfl
@[simp] theorem updTile_mordant (d : Dev) (p : Nat) (f : Tile → Tile) : (updTile d p f).mordant = d.mordant := rfl
@[simp] theorem updTile_run (d : Dev) (p : Nat) (f : Tile → Tile) : (updTile d p f).run = d.run := rfl
@[simp] theorem updTile_trail (d : Dev) (p : Nat) (f : Tile → Tile) : (updTile d p f).trail = d.trail := rfl
@[simp] theorem updTile_cap (d : Dev) (p : Nat) (f : Tile → Tile) : (updTile d p f).cap = d.cap := rfl
@[simp] theorem updTile_bkt (d : Dev) (p : Nat) (f : Tile → Tile) : (updTile d p f).bkt = d.bkt := rfl
@[simp] theorem updTile_lanes (d : Dev) (p : Nat) (f : Tile → Tile) : (updTile d p f).lanes = d.lanes := rfl
@[simp] theorem updTile_links (d : Dev) (p : Nat) (f : Tile → Tile) : (updTile d p f).links = d.links := rfl
@[simp] theorem updTile_sys (d : Dev) (p : Nat) (f : Tile → Tile) : (updTile d p f).sys = d.sys := rfl
@[simp] theorem updTile_pair (d : Dev) (p : Nat) (f : Tile → Tile) : (updTile d p f).pair = d.pair := rfl
@[simp] theorem updTile_host (d : Dev) (p : Nat) (f : Tile → Tile) : (updTile d p f).host = d.host := rfl
@[simp] theorem updTile_keep (d : Dev) (p : Nat) (f : Tile → Tile) : (updTile d p f).keep = d.keep := rfl
@[simp] theorem updTile_sn (d : Dev) (p : Nat) (f : Tile → Tile) : (updTile d p f).sn = d.sn := rfl
@[simp] theorem updTile_events (d : Dev) (p : Nat) (f : Tile → Tile) : (updTile d p f).events = d.events := rfl
@[simp] theorem updTile_trc (d : Dev) (p : Nat) (f : Tile → Tile) : (updTile d p f).trc = d.trc := rfl
@[simp] theorem updTile_clk (d : Dev) (p : Nat) (f : Tile → Tile) : (updTile d p f).clk = d.clk := rfl
@[simp] theorem updTile_th (d : Dev) (p : Nat) (f : Tile → Tile) : (updTile d p f).th = d.th := rfl
@[simp] theorem updTile_pins (d : Dev) (p : Nat) (f : Tile → Tile) : (updTile d p f).pins = d.pins := rfl
@[simp] theorem updTile_free (d : Dev) (p : Nat) (f : Tile → Tile) : (updTile d p f).free = d.free := rfl

/-! ## `updCluster` -/

@[simp] theorem updCluster_fuse (d : Dev) (p c : Nat) (f : Cluster → Cluster) : (updCluster d p c f).fuse = d.fuse := rfl
@[simp] theorem updCluster_exch (d : Dev) (p c : Nat) (f : Cluster → Cluster) : (updCluster d p c f).exch = d.exch := rfl
@[simp] theorem updCluster_tio (d : Dev) (p c : Nat) (f : Cluster → Cluster) : (updCluster d p c f).tio = d.tio := rfl
@[simp] theorem updCluster_mem (d : Dev) (p c : Nat) (f : Cluster → Cluster) : (updCluster d p c f).mem = d.mem := rfl
@[simp] theorem updCluster_regions (d : Dev) (p c : Nat) (f : Cluster → Cluster) : (updCluster d p c f).regions = d.regions := rfl
@[simp] theorem updCluster_image (d : Dev) (p c : Nat) (f : Cluster → Cluster) : (updCluster d p c f).image = d.image := rfl
@[simp] theorem updCluster_ld (d : Dev) (p c : Nat) (f : Cluster → Cluster) : (updCluster d p c f).ld = d.ld := rfl
@[simp] theorem updCluster_mordant (d : Dev) (p c : Nat) (f : Cluster → Cluster) : (updCluster d p c f).mordant = d.mordant := rfl
@[simp] theorem updCluster_run (d : Dev) (p c : Nat) (f : Cluster → Cluster) : (updCluster d p c f).run = d.run := rfl
@[simp] theorem updCluster_trail (d : Dev) (p c : Nat) (f : Cluster → Cluster) : (updCluster d p c f).trail = d.trail := rfl
@[simp] theorem updCluster_cap (d : Dev) (p c : Nat) (f : Cluster → Cluster) : (updCluster d p c f).cap = d.cap := rfl
@[simp] theorem updCluster_bkt (d : Dev) (p c : Nat) (f : Cluster → Cluster) : (updCluster d p c f).bkt = d.bkt := rfl
@[simp] theorem updCluster_lanes (d : Dev) (p c : Nat) (f : Cluster → Cluster) : (updCluster d p c f).lanes = d.lanes := rfl
@[simp] theorem updCluster_links (d : Dev) (p c : Nat) (f : Cluster → Cluster) : (updCluster d p c f).links = d.links := rfl
@[simp] theorem updCluster_sys (d : Dev) (p c : Nat) (f : Cluster → Cluster) : (updCluster d p c f).sys = d.sys := rfl
@[simp] theorem updCluster_pair (d : Dev) (p c : Nat) (f : Cluster → Cluster) : (updCluster d p c f).pair = d.pair := rfl
@[simp] theorem updCluster_host (d : Dev) (p c : Nat) (f : Cluster → Cluster) : (updCluster d p c f).host = d.host := rfl
@[simp] theorem updCluster_keep (d : Dev) (p c : Nat) (f : Cluster → Cluster) : (updCluster d p c f).keep = d.keep := rfl
@[simp] theorem updCluster_sn (d : Dev) (p c : Nat) (f : Cluster → Cluster) : (updCluster d p c f).sn = d.sn := rfl
@[simp] theorem updCluster_events (d : Dev) (p c : Nat) (f : Cluster → Cluster) : (updCluster d p c f).events = d.events := rfl
@[simp] theorem updCluster_trc (d : Dev) (p c : Nat) (f : Cluster → Cluster) : (updCluster d p c f).trc = d.trc := rfl
@[simp] theorem updCluster_clk (d : Dev) (p c : Nat) (f : Cluster → Cluster) : (updCluster d p c f).clk = d.clk := rfl
@[simp] theorem updCluster_th (d : Dev) (p c : Nat) (f : Cluster → Cluster) : (updCluster d p c f).th = d.th := rfl
@[simp] theorem updCluster_pins (d : Dev) (p c : Nat) (f : Cluster → Cluster) : (updCluster d p c f).pins = d.pins := rfl
@[simp] theorem updCluster_free (d : Dev) (p c : Nat) (f : Cluster → Cluster) : (updCluster d p c f).free = d.free := rfl

/-! ## `updCtx` -/

@[simp] theorem updCtx_fuse (d : Dev) (p q : Nat) (f : Ctx → Ctx) : (updCtx d p q f).fuse = d.fuse := rfl
@[simp] theorem updCtx_exch (d : Dev) (p q : Nat) (f : Ctx → Ctx) : (updCtx d p q f).exch = d.exch := rfl
@[simp] theorem updCtx_tio (d : Dev) (p q : Nat) (f : Ctx → Ctx) : (updCtx d p q f).tio = d.tio := rfl
@[simp] theorem updCtx_mem (d : Dev) (p q : Nat) (f : Ctx → Ctx) : (updCtx d p q f).mem = d.mem := rfl
@[simp] theorem updCtx_regions (d : Dev) (p q : Nat) (f : Ctx → Ctx) : (updCtx d p q f).regions = d.regions := rfl
@[simp] theorem updCtx_image (d : Dev) (p q : Nat) (f : Ctx → Ctx) : (updCtx d p q f).image = d.image := rfl
@[simp] theorem updCtx_ld (d : Dev) (p q : Nat) (f : Ctx → Ctx) : (updCtx d p q f).ld = d.ld := rfl
@[simp] theorem updCtx_mordant (d : Dev) (p q : Nat) (f : Ctx → Ctx) : (updCtx d p q f).mordant = d.mordant := rfl
@[simp] theorem updCtx_run (d : Dev) (p q : Nat) (f : Ctx → Ctx) : (updCtx d p q f).run = d.run := rfl
@[simp] theorem updCtx_trail (d : Dev) (p q : Nat) (f : Ctx → Ctx) : (updCtx d p q f).trail = d.trail := rfl
@[simp] theorem updCtx_cap (d : Dev) (p q : Nat) (f : Ctx → Ctx) : (updCtx d p q f).cap = d.cap := rfl
@[simp] theorem updCtx_bkt (d : Dev) (p q : Nat) (f : Ctx → Ctx) : (updCtx d p q f).bkt = d.bkt := rfl
@[simp] theorem updCtx_lanes (d : Dev) (p q : Nat) (f : Ctx → Ctx) : (updCtx d p q f).lanes = d.lanes := rfl
@[simp] theorem updCtx_links (d : Dev) (p q : Nat) (f : Ctx → Ctx) : (updCtx d p q f).links = d.links := rfl
@[simp] theorem updCtx_sys (d : Dev) (p q : Nat) (f : Ctx → Ctx) : (updCtx d p q f).sys = d.sys := rfl
@[simp] theorem updCtx_pair (d : Dev) (p q : Nat) (f : Ctx → Ctx) : (updCtx d p q f).pair = d.pair := rfl
@[simp] theorem updCtx_host (d : Dev) (p q : Nat) (f : Ctx → Ctx) : (updCtx d p q f).host = d.host := rfl
@[simp] theorem updCtx_keep (d : Dev) (p q : Nat) (f : Ctx → Ctx) : (updCtx d p q f).keep = d.keep := rfl
@[simp] theorem updCtx_sn (d : Dev) (p q : Nat) (f : Ctx → Ctx) : (updCtx d p q f).sn = d.sn := rfl
@[simp] theorem updCtx_events (d : Dev) (p q : Nat) (f : Ctx → Ctx) : (updCtx d p q f).events = d.events := rfl
@[simp] theorem updCtx_trc (d : Dev) (p q : Nat) (f : Ctx → Ctx) : (updCtx d p q f).trc = d.trc := rfl
@[simp] theorem updCtx_clk (d : Dev) (p q : Nat) (f : Ctx → Ctx) : (updCtx d p q f).clk = d.clk := rfl
@[simp] theorem updCtx_th (d : Dev) (p q : Nat) (f : Ctx → Ctx) : (updCtx d p q f).th = d.th := rfl
@[simp] theorem updCtx_pins (d : Dev) (p q : Nat) (f : Ctx → Ctx) : (updCtx d p q f).pins = d.pins := rfl
@[simp] theorem updCtx_free (d : Dev) (p q : Nat) (f : Ctx → Ctx) : (updCtx d p q f).free = d.free := rfl

/-! ## `updBank` -/

@[simp] theorem updBank_fuse (d : Dev) (p b : Nat) (f : Bank → Bank) : (updBank d p b f).fuse = d.fuse := rfl
@[simp] theorem updBank_exch (d : Dev) (p b : Nat) (f : Bank → Bank) : (updBank d p b f).exch = d.exch := rfl
@[simp] theorem updBank_tio (d : Dev) (p b : Nat) (f : Bank → Bank) : (updBank d p b f).tio = d.tio := rfl
@[simp] theorem updBank_mem (d : Dev) (p b : Nat) (f : Bank → Bank) : (updBank d p b f).mem = d.mem := rfl
@[simp] theorem updBank_regions (d : Dev) (p b : Nat) (f : Bank → Bank) : (updBank d p b f).regions = d.regions := rfl
@[simp] theorem updBank_image (d : Dev) (p b : Nat) (f : Bank → Bank) : (updBank d p b f).image = d.image := rfl
@[simp] theorem updBank_ld (d : Dev) (p b : Nat) (f : Bank → Bank) : (updBank d p b f).ld = d.ld := rfl
@[simp] theorem updBank_mordant (d : Dev) (p b : Nat) (f : Bank → Bank) : (updBank d p b f).mordant = d.mordant := rfl
@[simp] theorem updBank_run (d : Dev) (p b : Nat) (f : Bank → Bank) : (updBank d p b f).run = d.run := rfl
@[simp] theorem updBank_trail (d : Dev) (p b : Nat) (f : Bank → Bank) : (updBank d p b f).trail = d.trail := rfl
@[simp] theorem updBank_cap (d : Dev) (p b : Nat) (f : Bank → Bank) : (updBank d p b f).cap = d.cap := rfl
@[simp] theorem updBank_bkt (d : Dev) (p b : Nat) (f : Bank → Bank) : (updBank d p b f).bkt = d.bkt := rfl
@[simp] theorem updBank_lanes (d : Dev) (p b : Nat) (f : Bank → Bank) : (updBank d p b f).lanes = d.lanes := rfl
@[simp] theorem updBank_links (d : Dev) (p b : Nat) (f : Bank → Bank) : (updBank d p b f).links = d.links := rfl
@[simp] theorem updBank_sys (d : Dev) (p b : Nat) (f : Bank → Bank) : (updBank d p b f).sys = d.sys := rfl
@[simp] theorem updBank_pair (d : Dev) (p b : Nat) (f : Bank → Bank) : (updBank d p b f).pair = d.pair := rfl
@[simp] theorem updBank_host (d : Dev) (p b : Nat) (f : Bank → Bank) : (updBank d p b f).host = d.host := rfl
@[simp] theorem updBank_keep (d : Dev) (p b : Nat) (f : Bank → Bank) : (updBank d p b f).keep = d.keep := rfl
@[simp] theorem updBank_sn (d : Dev) (p b : Nat) (f : Bank → Bank) : (updBank d p b f).sn = d.sn := rfl
@[simp] theorem updBank_events (d : Dev) (p b : Nat) (f : Bank → Bank) : (updBank d p b f).events = d.events := rfl
@[simp] theorem updBank_trc (d : Dev) (p b : Nat) (f : Bank → Bank) : (updBank d p b f).trc = d.trc := rfl
@[simp] theorem updBank_clk (d : Dev) (p b : Nat) (f : Bank → Bank) : (updBank d p b f).clk = d.clk := rfl
@[simp] theorem updBank_th (d : Dev) (p b : Nat) (f : Bank → Bank) : (updBank d p b f).th = d.th := rfl
@[simp] theorem updBank_pins (d : Dev) (p b : Nat) (f : Bank → Bank) : (updBank d p b f).pins = d.pins := rfl
@[simp] theorem updBank_free (d : Dev) (p b : Nat) (f : Bank → Bank) : (updBank d p b f).free = d.free := rfl

/-! ## `updRegion` -/

@[simp] theorem updRegion_fuse (d : Dev) (r : Nat) (f : Region → Region) : (updRegion d r f).fuse = d.fuse := rfl
@[simp] theorem updRegion_tiles (d : Dev) (r : Nat) (f : Region → Region) : (updRegion d r f).tiles = d.tiles := rfl
@[simp] theorem updRegion_exch (d : Dev) (r : Nat) (f : Region → Region) : (updRegion d r f).exch = d.exch := rfl
@[simp] theorem updRegion_tio (d : Dev) (r : Nat) (f : Region → Region) : (updRegion d r f).tio = d.tio := rfl
@[simp] theorem updRegion_mem (d : Dev) (r : Nat) (f : Region → Region) : (updRegion d r f).mem = d.mem := rfl
@[simp] theorem updRegion_regions (d : Dev) (r : Nat) (f : Region → Region) : (updRegion d r f).regions = tupd Region.reset d.regions r f := rfl
@[simp] theorem updRegion_image (d : Dev) (r : Nat) (f : Region → Region) : (updRegion d r f).image = d.image := rfl
@[simp] theorem updRegion_ld (d : Dev) (r : Nat) (f : Region → Region) : (updRegion d r f).ld = d.ld := rfl
@[simp] theorem updRegion_mordant (d : Dev) (r : Nat) (f : Region → Region) : (updRegion d r f).mordant = d.mordant := rfl
@[simp] theorem updRegion_run (d : Dev) (r : Nat) (f : Region → Region) : (updRegion d r f).run = d.run := rfl
@[simp] theorem updRegion_trail (d : Dev) (r : Nat) (f : Region → Region) : (updRegion d r f).trail = d.trail := rfl
@[simp] theorem updRegion_cap (d : Dev) (r : Nat) (f : Region → Region) : (updRegion d r f).cap = d.cap := rfl
@[simp] theorem updRegion_bkt (d : Dev) (r : Nat) (f : Region → Region) : (updRegion d r f).bkt = d.bkt := rfl
@[simp] theorem updRegion_lanes (d : Dev) (r : Nat) (f : Region → Region) : (updRegion d r f).lanes = d.lanes := rfl
@[simp] theorem updRegion_links (d : Dev) (r : Nat) (f : Region → Region) : (updRegion d r f).links = d.links := rfl
@[simp] theorem updRegion_sys (d : Dev) (r : Nat) (f : Region → Region) : (updRegion d r f).sys = d.sys := rfl
@[simp] theorem updRegion_pair (d : Dev) (r : Nat) (f : Region → Region) : (updRegion d r f).pair = d.pair := rfl
@[simp] theorem updRegion_host (d : Dev) (r : Nat) (f : Region → Region) : (updRegion d r f).host = d.host := rfl
@[simp] theorem updRegion_keep (d : Dev) (r : Nat) (f : Region → Region) : (updRegion d r f).keep = d.keep := rfl
@[simp] theorem updRegion_sn (d : Dev) (r : Nat) (f : Region → Region) : (updRegion d r f).sn = d.sn := rfl
@[simp] theorem updRegion_events (d : Dev) (r : Nat) (f : Region → Region) : (updRegion d r f).events = d.events := rfl
@[simp] theorem updRegion_trc (d : Dev) (r : Nat) (f : Region → Region) : (updRegion d r f).trc = d.trc := rfl
@[simp] theorem updRegion_clk (d : Dev) (r : Nat) (f : Region → Region) : (updRegion d r f).clk = d.clk := rfl
@[simp] theorem updRegion_th (d : Dev) (r : Nat) (f : Region → Region) : (updRegion d r f).th = d.th := rfl
@[simp] theorem updRegion_pins (d : Dev) (r : Nat) (f : Region → Region) : (updRegion d r f).pins = d.pins := rfl
@[simp] theorem updRegion_free (d : Dev) (r : Nat) (f : Region → Region) : (updRegion d r f).free = d.free := rfl

/-! ## `updLane` -/

@[simp] theorem updLane_fuse (d : Dev) (l : Nat) (f : Lane → Lane) : (updLane d l f).fuse = d.fuse := rfl
@[simp] theorem updLane_tiles (d : Dev) (l : Nat) (f : Lane → Lane) : (updLane d l f).tiles = d.tiles := rfl
@[simp] theorem updLane_exch (d : Dev) (l : Nat) (f : Lane → Lane) : (updLane d l f).exch = d.exch := rfl
@[simp] theorem updLane_tio (d : Dev) (l : Nat) (f : Lane → Lane) : (updLane d l f).tio = d.tio := rfl
@[simp] theorem updLane_mem (d : Dev) (l : Nat) (f : Lane → Lane) : (updLane d l f).mem = d.mem := rfl
@[simp] theorem updLane_regions (d : Dev) (l : Nat) (f : Lane → Lane) : (updLane d l f).regions = d.regions := rfl
@[simp] theorem updLane_image (d : Dev) (l : Nat) (f : Lane → Lane) : (updLane d l f).image = d.image := rfl
@[simp] theorem updLane_ld (d : Dev) (l : Nat) (f : Lane → Lane) : (updLane d l f).ld = d.ld := rfl
@[simp] theorem updLane_mordant (d : Dev) (l : Nat) (f : Lane → Lane) : (updLane d l f).mordant = d.mordant := rfl
@[simp] theorem updLane_run (d : Dev) (l : Nat) (f : Lane → Lane) : (updLane d l f).run = d.run := rfl
@[simp] theorem updLane_trail (d : Dev) (l : Nat) (f : Lane → Lane) : (updLane d l f).trail = d.trail := rfl
@[simp] theorem updLane_cap (d : Dev) (l : Nat) (f : Lane → Lane) : (updLane d l f).cap = d.cap := rfl
@[simp] theorem updLane_bkt (d : Dev) (l : Nat) (f : Lane → Lane) : (updLane d l f).bkt = d.bkt := rfl
@[simp] theorem updLane_lanes (d : Dev) (l : Nat) (f : Lane → Lane) : (updLane d l f).lanes = tupd Lane.reset d.lanes l f := rfl
@[simp] theorem updLane_links (d : Dev) (l : Nat) (f : Lane → Lane) : (updLane d l f).links = d.links := rfl
@[simp] theorem updLane_sys (d : Dev) (l : Nat) (f : Lane → Lane) : (updLane d l f).sys = d.sys := rfl
@[simp] theorem updLane_pair (d : Dev) (l : Nat) (f : Lane → Lane) : (updLane d l f).pair = d.pair := rfl
@[simp] theorem updLane_host (d : Dev) (l : Nat) (f : Lane → Lane) : (updLane d l f).host = d.host := rfl
@[simp] theorem updLane_keep (d : Dev) (l : Nat) (f : Lane → Lane) : (updLane d l f).keep = d.keep := rfl
@[simp] theorem updLane_sn (d : Dev) (l : Nat) (f : Lane → Lane) : (updLane d l f).sn = d.sn := rfl
@[simp] theorem updLane_events (d : Dev) (l : Nat) (f : Lane → Lane) : (updLane d l f).events = d.events := rfl
@[simp] theorem updLane_trc (d : Dev) (l : Nat) (f : Lane → Lane) : (updLane d l f).trc = d.trc := rfl
@[simp] theorem updLane_clk (d : Dev) (l : Nat) (f : Lane → Lane) : (updLane d l f).clk = d.clk := rfl
@[simp] theorem updLane_th (d : Dev) (l : Nat) (f : Lane → Lane) : (updLane d l f).th = d.th := rfl
@[simp] theorem updLane_pins (d : Dev) (l : Nat) (f : Lane → Lane) : (updLane d l f).pins = d.pins := rfl
@[simp] theorem updLane_free (d : Dev) (l : Nat) (f : Lane → Lane) : (updLane d l f).free = d.free := rfl

/-! ## `updLink` -/

@[simp] theorem updLink_fuse (d : Dev) (l : Nat) (f : Link → Link) : (updLink d l f).fuse = d.fuse := rfl
@[simp] theorem updLink_tiles (d : Dev) (l : Nat) (f : Link → Link) : (updLink d l f).tiles = d.tiles := rfl
@[simp] theorem updLink_exch (d : Dev) (l : Nat) (f : Link → Link) : (updLink d l f).exch = d.exch := rfl
@[simp] theorem updLink_tio (d : Dev) (l : Nat) (f : Link → Link) : (updLink d l f).tio = d.tio := rfl
@[simp] theorem updLink_mem (d : Dev) (l : Nat) (f : Link → Link) : (updLink d l f).mem = d.mem := rfl
@[simp] theorem updLink_regions (d : Dev) (l : Nat) (f : Link → Link) : (updLink d l f).regions = d.regions := rfl
@[simp] theorem updLink_image (d : Dev) (l : Nat) (f : Link → Link) : (updLink d l f).image = d.image := rfl
@[simp] theorem updLink_ld (d : Dev) (l : Nat) (f : Link → Link) : (updLink d l f).ld = d.ld := rfl
@[simp] theorem updLink_mordant (d : Dev) (l : Nat) (f : Link → Link) : (updLink d l f).mordant = d.mordant := rfl
@[simp] theorem updLink_run (d : Dev) (l : Nat) (f : Link → Link) : (updLink d l f).run = d.run := rfl
@[simp] theorem updLink_trail (d : Dev) (l : Nat) (f : Link → Link) : (updLink d l f).trail = d.trail := rfl
@[simp] theorem updLink_cap (d : Dev) (l : Nat) (f : Link → Link) : (updLink d l f).cap = d.cap := rfl
@[simp] theorem updLink_bkt (d : Dev) (l : Nat) (f : Link → Link) : (updLink d l f).bkt = d.bkt := rfl
@[simp] theorem updLink_lanes (d : Dev) (l : Nat) (f : Link → Link) : (updLink d l f).lanes = d.lanes := rfl
@[simp] theorem updLink_links (d : Dev) (l : Nat) (f : Link → Link) : (updLink d l f).links = tupd Link.reset d.links l f := rfl
@[simp] theorem updLink_sys (d : Dev) (l : Nat) (f : Link → Link) : (updLink d l f).sys = d.sys := rfl
@[simp] theorem updLink_pair (d : Dev) (l : Nat) (f : Link → Link) : (updLink d l f).pair = d.pair := rfl
@[simp] theorem updLink_host (d : Dev) (l : Nat) (f : Link → Link) : (updLink d l f).host = d.host := rfl
@[simp] theorem updLink_keep (d : Dev) (l : Nat) (f : Link → Link) : (updLink d l f).keep = d.keep := rfl
@[simp] theorem updLink_sn (d : Dev) (l : Nat) (f : Link → Link) : (updLink d l f).sn = d.sn := rfl
@[simp] theorem updLink_events (d : Dev) (l : Nat) (f : Link → Link) : (updLink d l f).events = d.events := rfl
@[simp] theorem updLink_trc (d : Dev) (l : Nat) (f : Link → Link) : (updLink d l f).trc = d.trc := rfl
@[simp] theorem updLink_clk (d : Dev) (l : Nat) (f : Link → Link) : (updLink d l f).clk = d.clk := rfl
@[simp] theorem updLink_th (d : Dev) (l : Nat) (f : Link → Link) : (updLink d l f).th = d.th := rfl
@[simp] theorem updLink_pins (d : Dev) (l : Nat) (f : Link → Link) : (updLink d l f).pins = d.pins := rfl
@[simp] theorem updLink_free (d : Dev) (l : Nat) (f : Link → Link) : (updLink d l f).free = d.free := rfl

/-! ## `updSeat` -/

@[simp] theorem updSeat_fuse (d : Dev) (x : Seat) (f : SeatSt → SeatSt) : (updSeat d x f).fuse = d.fuse := rfl
@[simp] theorem updSeat_tiles (d : Dev) (x : Seat) (f : SeatSt → SeatSt) : (updSeat d x f).tiles = d.tiles := rfl
@[simp] theorem updSeat_exch (d : Dev) (x : Seat) (f : SeatSt → SeatSt) : (updSeat d x f).exch = d.exch := rfl
@[simp] theorem updSeat_tio (d : Dev) (x : Seat) (f : SeatSt → SeatSt) : (updSeat d x f).tio = d.tio := rfl
@[simp] theorem updSeat_mem (d : Dev) (x : Seat) (f : SeatSt → SeatSt) : (updSeat d x f).mem = d.mem := rfl
@[simp] theorem updSeat_regions (d : Dev) (x : Seat) (f : SeatSt → SeatSt) : (updSeat d x f).regions = d.regions := rfl
@[simp] theorem updSeat_image (d : Dev) (x : Seat) (f : SeatSt → SeatSt) : (updSeat d x f).image = d.image := rfl
@[simp] theorem updSeat_ld (d : Dev) (x : Seat) (f : SeatSt → SeatSt) : (updSeat d x f).ld = d.ld := rfl
@[simp] theorem updSeat_mordant (d : Dev) (x : Seat) (f : SeatSt → SeatSt) : (updSeat d x f).mordant = d.mordant := rfl
@[simp] theorem updSeat_run (d : Dev) (x : Seat) (f : SeatSt → SeatSt) : (updSeat d x f).run = d.run := rfl
@[simp] theorem updSeat_trail (d : Dev) (x : Seat) (f : SeatSt → SeatSt) : (updSeat d x f).trail = d.trail := rfl
@[simp] theorem updSeat_cap (d : Dev) (x : Seat) (f : SeatSt → SeatSt) : (updSeat d x f).cap = d.cap := rfl
@[simp] theorem updSeat_bkt (d : Dev) (x : Seat) (f : SeatSt → SeatSt) : (updSeat d x f).bkt = d.bkt := rfl
@[simp] theorem updSeat_lanes (d : Dev) (x : Seat) (f : SeatSt → SeatSt) : (updSeat d x f).lanes = d.lanes := rfl
@[simp] theorem updSeat_links (d : Dev) (x : Seat) (f : SeatSt → SeatSt) : (updSeat d x f).links = d.links := rfl
@[simp] theorem updSeat_sys (d : Dev) (x : Seat) (f : SeatSt → SeatSt) : (updSeat d x f).sys = d.sys := rfl
@[simp] theorem updSeat_pair (d : Dev) (x : Seat) (f : SeatSt → SeatSt) : (updSeat d x f).pair = d.pair := rfl
@[simp] theorem updSeat_host (d : Dev) (x : Seat) (f : SeatSt → SeatSt) : (updSeat d x f).host = d.host.updSeat x f := rfl
@[simp] theorem updSeat_keep (d : Dev) (x : Seat) (f : SeatSt → SeatSt) : (updSeat d x f).keep = d.keep := rfl
@[simp] theorem updSeat_sn (d : Dev) (x : Seat) (f : SeatSt → SeatSt) : (updSeat d x f).sn = d.sn := rfl
@[simp] theorem updSeat_events (d : Dev) (x : Seat) (f : SeatSt → SeatSt) : (updSeat d x f).events = d.events := rfl
@[simp] theorem updSeat_trc (d : Dev) (x : Seat) (f : SeatSt → SeatSt) : (updSeat d x f).trc = d.trc := rfl
@[simp] theorem updSeat_clk (d : Dev) (x : Seat) (f : SeatSt → SeatSt) : (updSeat d x f).clk = d.clk := rfl
@[simp] theorem updSeat_th (d : Dev) (x : Seat) (f : SeatSt → SeatSt) : (updSeat d x f).th = d.th := rfl
@[simp] theorem updSeat_pins (d : Dev) (x : Seat) (f : SeatSt → SeatSt) : (updSeat d x f).pins = d.pins := rfl
@[simp] theorem updSeat_free (d : Dev) (x : Seat) (f : SeatSt → SeatSt) : (updSeat d x f).free = d.free := rfl

/-! ## `takeUp` -/

@[simp] theorem takeUp_fuse (d : Dev) (x : Seat) : (takeUp x d).fuse = d.fuse := rfl
@[simp] theorem takeUp_tiles (d : Dev) (x : Seat) : (takeUp x d).tiles = d.tiles := rfl
@[simp] theorem takeUp_exch (d : Dev) (x : Seat) : (takeUp x d).exch = d.exch := rfl
@[simp] theorem takeUp_tio (d : Dev) (x : Seat) : (takeUp x d).tio = d.tio := rfl
@[simp] theorem takeUp_mem (d : Dev) (x : Seat) : (takeUp x d).mem = d.mem := rfl
@[simp] theorem takeUp_regions (d : Dev) (x : Seat) : (takeUp x d).regions = d.regions := rfl
@[simp] theorem takeUp_image (d : Dev) (x : Seat) : (takeUp x d).image = d.image := rfl
@[simp] theorem takeUp_ld (d : Dev) (x : Seat) : (takeUp x d).ld = d.ld := rfl
@[simp] theorem takeUp_mordant (d : Dev) (x : Seat) : (takeUp x d).mordant = d.mordant := rfl
@[simp] theorem takeUp_run (d : Dev) (x : Seat) : (takeUp x d).run = d.run := rfl
@[simp] theorem takeUp_trail (d : Dev) (x : Seat) : (takeUp x d).trail = d.trail := rfl
@[simp] theorem takeUp_cap (d : Dev) (x : Seat) : (takeUp x d).cap = d.cap := rfl
@[simp] theorem takeUp_bkt (d : Dev) (x : Seat) : (takeUp x d).bkt = d.bkt := rfl
@[simp] theorem takeUp_lanes (d : Dev) (x : Seat) : (takeUp x d).lanes = d.lanes := rfl
@[simp] theorem takeUp_links (d : Dev) (x : Seat) : (takeUp x d).links = d.links := rfl
@[simp] theorem takeUp_sys (d : Dev) (x : Seat) : (takeUp x d).sys = d.sys := rfl
@[simp] theorem takeUp_pair (d : Dev) (x : Seat) : (takeUp x d).pair = d.pair := rfl
@[simp] theorem takeUp_keep (d : Dev) (x : Seat) : (takeUp x d).keep = d.keep := rfl
@[simp] theorem takeUp_sn (d : Dev) (x : Seat) : (takeUp x d).sn = d.sn := rfl
@[simp] theorem takeUp_events (d : Dev) (x : Seat) : (takeUp x d).events = d.events := rfl
@[simp] theorem takeUp_trc (d : Dev) (x : Seat) : (takeUp x d).trc = d.trc := rfl
@[simp] theorem takeUp_clk (d : Dev) (x : Seat) : (takeUp x d).clk = d.clk := rfl
@[simp] theorem takeUp_th (d : Dev) (x : Seat) : (takeUp x d).th = d.th := rfl
@[simp] theorem takeUp_pins (d : Dev) (x : Seat) : (takeUp x d).pins = d.pins := rfl
@[simp] theorem takeUp_free (d : Dev) (x : Seat) : (takeUp x d).free = d.free := rfl

/-! ## `refuseSeat` -/

@[simp] theorem refuseSeat_fuse (d : Dev) (x : Seat) : (refuseSeat x d).fuse = d.fuse := rfl
@[simp] theorem refuseSeat_tiles (d : Dev) (x : Seat) : (refuseSeat x d).tiles = d.tiles := rfl
@[simp] theorem refuseSeat_exch (d : Dev) (x : Seat) : (refuseSeat x d).exch = d.exch := rfl
@[simp] theorem refuseSeat_tio (d : Dev) (x : Seat) : (refuseSeat x d).tio = d.tio := rfl
@[simp] theorem refuseSeat_mem (d : Dev) (x : Seat) : (refuseSeat x d).mem = d.mem := rfl
@[simp] theorem refuseSeat_regions (d : Dev) (x : Seat) : (refuseSeat x d).regions = d.regions := rfl
@[simp] theorem refuseSeat_image (d : Dev) (x : Seat) : (refuseSeat x d).image = d.image := rfl
@[simp] theorem refuseSeat_ld (d : Dev) (x : Seat) : (refuseSeat x d).ld = d.ld := rfl
@[simp] theorem refuseSeat_mordant (d : Dev) (x : Seat) : (refuseSeat x d).mordant = d.mordant := rfl
@[simp] theorem refuseSeat_run (d : Dev) (x : Seat) : (refuseSeat x d).run = d.run := rfl
@[simp] theorem refuseSeat_trail (d : Dev) (x : Seat) : (refuseSeat x d).trail = d.trail := rfl
@[simp] theorem refuseSeat_cap (d : Dev) (x : Seat) : (refuseSeat x d).cap = d.cap := rfl
@[simp] theorem refuseSeat_bkt (d : Dev) (x : Seat) : (refuseSeat x d).bkt = d.bkt := rfl
@[simp] theorem refuseSeat_lanes (d : Dev) (x : Seat) : (refuseSeat x d).lanes = d.lanes := rfl
@[simp] theorem refuseSeat_links (d : Dev) (x : Seat) : (refuseSeat x d).links = d.links := rfl
@[simp] theorem refuseSeat_sys (d : Dev) (x : Seat) : (refuseSeat x d).sys = d.sys := rfl
@[simp] theorem refuseSeat_pair (d : Dev) (x : Seat) : (refuseSeat x d).pair = d.pair := rfl
@[simp] theorem refuseSeat_keep (d : Dev) (x : Seat) : (refuseSeat x d).keep = d.keep := rfl
@[simp] theorem refuseSeat_sn (d : Dev) (x : Seat) : (refuseSeat x d).sn = d.sn := rfl
@[simp] theorem refuseSeat_events (d : Dev) (x : Seat) : (refuseSeat x d).events = d.events := rfl
@[simp] theorem refuseSeat_trc (d : Dev) (x : Seat) : (refuseSeat x d).trc = d.trc := rfl
@[simp] theorem refuseSeat_clk (d : Dev) (x : Seat) : (refuseSeat x d).clk = d.clk := rfl
@[simp] theorem refuseSeat_th (d : Dev) (x : Seat) : (refuseSeat x d).th = d.th := rfl
@[simp] theorem refuseSeat_pins (d : Dev) (x : Seat) : (refuseSeat x d).pins = d.pins := rfl
@[simp] theorem refuseSeat_free (d : Dev) (x : Seat) : (refuseSeat x d).free = d.free := rfl

/-! ## `denySeat` -/

@[simp] theorem denySeat_fuse (d : Dev) (x : Seat) : (denySeat x d).fuse = d.fuse := rfl
@[simp] theorem denySeat_tiles (d : Dev) (x : Seat) : (denySeat x d).tiles = d.tiles := rfl
@[simp] theorem denySeat_exch (d : Dev) (x : Seat) : (denySeat x d).exch = d.exch := rfl
@[simp] theorem denySeat_tio (d : Dev) (x : Seat) : (denySeat x d).tio = d.tio := rfl
@[simp] theorem denySeat_mem (d : Dev) (x : Seat) : (denySeat x d).mem = d.mem := rfl
@[simp] theorem denySeat_regions (d : Dev) (x : Seat) : (denySeat x d).regions = d.regions := rfl
@[simp] theorem denySeat_image (d : Dev) (x : Seat) : (denySeat x d).image = d.image := rfl
@[simp] theorem denySeat_ld (d : Dev) (x : Seat) : (denySeat x d).ld = d.ld := rfl
@[simp] theorem denySeat_mordant (d : Dev) (x : Seat) : (denySeat x d).mordant = d.mordant := rfl
@[simp] theorem denySeat_run (d : Dev) (x : Seat) : (denySeat x d).run = d.run := rfl
@[simp] theorem denySeat_trail (d : Dev) (x : Seat) : (denySeat x d).trail = d.trail := rfl
@[simp] theorem denySeat_cap (d : Dev) (x : Seat) : (denySeat x d).cap = d.cap := rfl
@[simp] theorem denySeat_bkt (d : Dev) (x : Seat) : (denySeat x d).bkt = d.bkt := rfl
@[simp] theorem denySeat_lanes (d : Dev) (x : Seat) : (denySeat x d).lanes = d.lanes := rfl
@[simp] theorem denySeat_links (d : Dev) (x : Seat) : (denySeat x d).links = d.links := rfl
@[simp] theorem denySeat_sys (d : Dev) (x : Seat) : (denySeat x d).sys = d.sys := rfl
@[simp] theorem denySeat_pair (d : Dev) (x : Seat) : (denySeat x d).pair = d.pair := rfl
@[simp] theorem denySeat_keep (d : Dev) (x : Seat) : (denySeat x d).keep = d.keep := rfl
@[simp] theorem denySeat_sn (d : Dev) (x : Seat) : (denySeat x d).sn = d.sn := rfl
@[simp] theorem denySeat_events (d : Dev) (x : Seat) : (denySeat x d).events = d.events := rfl
@[simp] theorem denySeat_trc (d : Dev) (x : Seat) : (denySeat x d).trc = d.trc := rfl
@[simp] theorem denySeat_clk (d : Dev) (x : Seat) : (denySeat x d).clk = d.clk := rfl
@[simp] theorem denySeat_th (d : Dev) (x : Seat) : (denySeat x d).th = d.th := rfl
@[simp] theorem denySeat_pins (d : Dev) (x : Seat) : (denySeat x d).pins = d.pins := rfl
@[simp] theorem denySeat_free (d : Dev) (x : Seat) : (denySeat x d).free = d.free := rfl

/-! ## `answer` -/

@[simp] theorem answer_fuse (d : Dev) (n : Nat) (v : W64) : (answer n v d).fuse = d.fuse := rfl
@[simp] theorem answer_tiles (d : Dev) (n : Nat) (v : W64) : (answer n v d).tiles = d.tiles := rfl
@[simp] theorem answer_exch (d : Dev) (n : Nat) (v : W64) : (answer n v d).exch = d.exch := rfl
@[simp] theorem answer_tio (d : Dev) (n : Nat) (v : W64) : (answer n v d).tio = d.tio := rfl
@[simp] theorem answer_mem (d : Dev) (n : Nat) (v : W64) : (answer n v d).mem = d.mem := rfl
@[simp] theorem answer_regions (d : Dev) (n : Nat) (v : W64) : (answer n v d).regions = d.regions := rfl
@[simp] theorem answer_image (d : Dev) (n : Nat) (v : W64) : (answer n v d).image = d.image := rfl
@[simp] theorem answer_ld (d : Dev) (n : Nat) (v : W64) : (answer n v d).ld = d.ld := rfl
@[simp] theorem answer_mordant (d : Dev) (n : Nat) (v : W64) : (answer n v d).mordant = d.mordant := rfl
@[simp] theorem answer_run (d : Dev) (n : Nat) (v : W64) : (answer n v d).run = d.run := rfl
@[simp] theorem answer_trail (d : Dev) (n : Nat) (v : W64) : (answer n v d).trail = d.trail := rfl
@[simp] theorem answer_cap (d : Dev) (n : Nat) (v : W64) : (answer n v d).cap = d.cap := rfl
@[simp] theorem answer_bkt (d : Dev) (n : Nat) (v : W64) : (answer n v d).bkt = d.bkt := rfl
@[simp] theorem answer_lanes (d : Dev) (n : Nat) (v : W64) : (answer n v d).lanes = d.lanes := rfl
@[simp] theorem answer_links (d : Dev) (n : Nat) (v : W64) : (answer n v d).links = d.links := rfl
@[simp] theorem answer_sys (d : Dev) (n : Nat) (v : W64) : (answer n v d).sys = d.sys := rfl
@[simp] theorem answer_pair (d : Dev) (n : Nat) (v : W64) : (answer n v d).pair = d.pair := rfl
@[simp] theorem answer_keep (d : Dev) (n : Nat) (v : W64) : (answer n v d).keep = d.keep := rfl
@[simp] theorem answer_sn (d : Dev) (n : Nat) (v : W64) : (answer n v d).sn = d.sn := rfl
@[simp] theorem answer_events (d : Dev) (n : Nat) (v : W64) : (answer n v d).events = d.events := rfl
@[simp] theorem answer_trc (d : Dev) (n : Nat) (v : W64) : (answer n v d).trc = d.trc := rfl
@[simp] theorem answer_clk (d : Dev) (n : Nat) (v : W64) : (answer n v d).clk = d.clk := rfl
@[simp] theorem answer_th (d : Dev) (n : Nat) (v : W64) : (answer n v d).th = d.th := rfl
@[simp] theorem answer_pins (d : Dev) (n : Nat) (v : W64) : (answer n v d).pins = d.pins := rfl
@[simp] theorem answer_free (d : Dev) (n : Nat) (v : W64) : (answer n v d).free = d.free := rfl

/-! ## `answerGate` -/

@[simp] theorem answerGate_fuse (d : Dev) (n : Nat) : (answerGate n d).fuse = d.fuse := rfl
@[simp] theorem answerGate_tiles (d : Dev) (n : Nat) : (answerGate n d).tiles = d.tiles := rfl
@[simp] theorem answerGate_exch (d : Dev) (n : Nat) : (answerGate n d).exch = d.exch := rfl
@[simp] theorem answerGate_tio (d : Dev) (n : Nat) : (answerGate n d).tio = d.tio := rfl
@[simp] theorem answerGate_mem (d : Dev) (n : Nat) : (answerGate n d).mem = d.mem := rfl
@[simp] theorem answerGate_regions (d : Dev) (n : Nat) : (answerGate n d).regions = d.regions := rfl
@[simp] theorem answerGate_image (d : Dev) (n : Nat) : (answerGate n d).image = d.image := rfl
@[simp] theorem answerGate_ld (d : Dev) (n : Nat) : (answerGate n d).ld = d.ld := rfl
@[simp] theorem answerGate_mordant (d : Dev) (n : Nat) : (answerGate n d).mordant = d.mordant := rfl
@[simp] theorem answerGate_run (d : Dev) (n : Nat) : (answerGate n d).run = d.run := rfl
@[simp] theorem answerGate_trail (d : Dev) (n : Nat) : (answerGate n d).trail = d.trail := rfl
@[simp] theorem answerGate_cap (d : Dev) (n : Nat) : (answerGate n d).cap = d.cap := rfl
@[simp] theorem answerGate_bkt (d : Dev) (n : Nat) : (answerGate n d).bkt = d.bkt := rfl
@[simp] theorem answerGate_lanes (d : Dev) (n : Nat) : (answerGate n d).lanes = d.lanes := rfl
@[simp] theorem answerGate_links (d : Dev) (n : Nat) : (answerGate n d).links = d.links := rfl
@[simp] theorem answerGate_sys (d : Dev) (n : Nat) : (answerGate n d).sys = d.sys := rfl
@[simp] theorem answerGate_pair (d : Dev) (n : Nat) : (answerGate n d).pair = d.pair := rfl
@[simp] theorem answerGate_keep (d : Dev) (n : Nat) : (answerGate n d).keep = d.keep := rfl
@[simp] theorem answerGate_sn (d : Dev) (n : Nat) : (answerGate n d).sn = d.sn := rfl
@[simp] theorem answerGate_events (d : Dev) (n : Nat) : (answerGate n d).events = d.events := rfl
@[simp] theorem answerGate_trc (d : Dev) (n : Nat) : (answerGate n d).trc = d.trc := rfl
@[simp] theorem answerGate_clk (d : Dev) (n : Nat) : (answerGate n d).clk = d.clk := rfl
@[simp] theorem answerGate_th (d : Dev) (n : Nat) : (answerGate n d).th = d.th := rfl
@[simp] theorem answerGate_pins (d : Dev) (n : Nat) : (answerGate n d).pins = d.pins := rfl
@[simp] theorem answerGate_free (d : Dev) (n : Nat) : (answerGate n d).free = d.free := rfl

/-! ## `pulse` -/

@[simp] theorem pulse_fuse (d : Dev) (n : Nat) : (pulse n d).fuse = d.fuse := rfl
@[simp] theorem pulse_tiles (d : Dev) (n : Nat) : (pulse n d).tiles = d.tiles := rfl
@[simp] theorem pulse_exch (d : Dev) (n : Nat) : (pulse n d).exch = d.exch := rfl
@[simp] theorem pulse_tio (d : Dev) (n : Nat) : (pulse n d).tio = d.tio := rfl
@[simp] theorem pulse_mem (d : Dev) (n : Nat) : (pulse n d).mem = d.mem := rfl
@[simp] theorem pulse_regions (d : Dev) (n : Nat) : (pulse n d).regions = d.regions := rfl
@[simp] theorem pulse_image (d : Dev) (n : Nat) : (pulse n d).image = d.image := rfl
@[simp] theorem pulse_ld (d : Dev) (n : Nat) : (pulse n d).ld = d.ld := rfl
@[simp] theorem pulse_mordant (d : Dev) (n : Nat) : (pulse n d).mordant = d.mordant := rfl
@[simp] theorem pulse_run (d : Dev) (n : Nat) : (pulse n d).run = d.run := rfl
@[simp] theorem pulse_trail (d : Dev) (n : Nat) : (pulse n d).trail = d.trail := rfl
@[simp] theorem pulse_cap (d : Dev) (n : Nat) : (pulse n d).cap = d.cap := rfl
@[simp] theorem pulse_bkt (d : Dev) (n : Nat) : (pulse n d).bkt = d.bkt := rfl
@[simp] theorem pulse_lanes (d : Dev) (n : Nat) : (pulse n d).lanes = d.lanes := rfl
@[simp] theorem pulse_links (d : Dev) (n : Nat) : (pulse n d).links = d.links := rfl
@[simp] theorem pulse_sys (d : Dev) (n : Nat) : (pulse n d).sys = d.sys := rfl
@[simp] theorem pulse_pair (d : Dev) (n : Nat) : (pulse n d).pair = d.pair := rfl
@[simp] theorem pulse_host (d : Dev) (n : Nat) : (pulse n d).host = d.host := rfl
@[simp] theorem pulse_keep (d : Dev) (n : Nat) : (pulse n d).keep = d.keep := rfl
@[simp] theorem pulse_sn (d : Dev) (n : Nat) : (pulse n d).sn = d.sn := rfl
@[simp] theorem pulse_events (d : Dev) (n : Nat) : (pulse n d).events = d.events ++ [newEvent d n true true 1024] := rfl
@[simp] theorem pulse_trc (d : Dev) (n : Nat) : (pulse n d).trc = d.trc := rfl
@[simp] theorem pulse_clk (d : Dev) (n : Nat) : (pulse n d).clk = d.clk := rfl
@[simp] theorem pulse_th (d : Dev) (n : Nat) : (pulse n d).th = d.th := rfl
@[simp] theorem pulse_pins (d : Dev) (n : Nat) : (pulse n d).pins = d.pins := rfl
@[simp] theorem pulse_free (d : Dev) (n : Nat) : (pulse n d).free = d.free := rfl

/-! ## `setCauses` -/

@[simp] theorem setCauses_fuse (d : Dev) (b : BitVec 16) : (setCauses b d).fuse = d.fuse := rfl
@[simp] theorem setCauses_tiles (d : Dev) (b : BitVec 16) : (setCauses b d).tiles = d.tiles := rfl
@[simp] theorem setCauses_exch (d : Dev) (b : BitVec 16) : (setCauses b d).exch = d.exch := rfl
@[simp] theorem setCauses_tio (d : Dev) (b : BitVec 16) : (setCauses b d).tio = d.tio := rfl
@[simp] theorem setCauses_mem (d : Dev) (b : BitVec 16) : (setCauses b d).mem = d.mem := rfl
@[simp] theorem setCauses_regions (d : Dev) (b : BitVec 16) : (setCauses b d).regions = d.regions := rfl
@[simp] theorem setCauses_image (d : Dev) (b : BitVec 16) : (setCauses b d).image = d.image := rfl
@[simp] theorem setCauses_ld (d : Dev) (b : BitVec 16) : (setCauses b d).ld = d.ld := rfl
@[simp] theorem setCauses_mordant (d : Dev) (b : BitVec 16) : (setCauses b d).mordant = d.mordant := rfl
@[simp] theorem setCauses_trail (d : Dev) (b : BitVec 16) : (setCauses b d).trail = d.trail := rfl
@[simp] theorem setCauses_cap (d : Dev) (b : BitVec 16) : (setCauses b d).cap = d.cap := rfl
@[simp] theorem setCauses_bkt (d : Dev) (b : BitVec 16) : (setCauses b d).bkt = d.bkt := rfl
@[simp] theorem setCauses_lanes (d : Dev) (b : BitVec 16) : (setCauses b d).lanes = d.lanes := rfl
@[simp] theorem setCauses_links (d : Dev) (b : BitVec 16) : (setCauses b d).links = d.links := rfl
@[simp] theorem setCauses_sys (d : Dev) (b : BitVec 16) : (setCauses b d).sys = d.sys := rfl
@[simp] theorem setCauses_pair (d : Dev) (b : BitVec 16) : (setCauses b d).pair = d.pair := rfl
@[simp] theorem setCauses_host (d : Dev) (b : BitVec 16) : (setCauses b d).host = d.host := rfl
@[simp] theorem setCauses_keep (d : Dev) (b : BitVec 16) : (setCauses b d).keep = d.keep := rfl
@[simp] theorem setCauses_sn (d : Dev) (b : BitVec 16) : (setCauses b d).sn = d.sn := rfl
@[simp] theorem setCauses_events (d : Dev) (b : BitVec 16) : (setCauses b d).events = d.events := rfl
@[simp] theorem setCauses_trc (d : Dev) (b : BitVec 16) : (setCauses b d).trc = d.trc := rfl
@[simp] theorem setCauses_clk (d : Dev) (b : BitVec 16) : (setCauses b d).clk = d.clk := rfl
@[simp] theorem setCauses_th (d : Dev) (b : BitVec 16) : (setCauses b d).th = d.th := rfl
@[simp] theorem setCauses_pins (d : Dev) (b : BitVec 16) : (setCauses b d).pins = d.pins := rfl
@[simp] theorem setCauses_free (d : Dev) (b : BitVec 16) : (setCauses b d).free = d.free := rfl

/-! ## `updLd` -/

@[simp] theorem updLd_fuse (d : Dev) (f : Loader → Loader) : (updLd f d).fuse = d.fuse := rfl
@[simp] theorem updLd_tiles (d : Dev) (f : Loader → Loader) : (updLd f d).tiles = d.tiles := rfl
@[simp] theorem updLd_exch (d : Dev) (f : Loader → Loader) : (updLd f d).exch = d.exch := rfl
@[simp] theorem updLd_tio (d : Dev) (f : Loader → Loader) : (updLd f d).tio = d.tio := rfl
@[simp] theorem updLd_mem (d : Dev) (f : Loader → Loader) : (updLd f d).mem = d.mem := rfl
@[simp] theorem updLd_regions (d : Dev) (f : Loader → Loader) : (updLd f d).regions = d.regions := rfl
@[simp] theorem updLd_image (d : Dev) (f : Loader → Loader) : (updLd f d).image = d.image := rfl
@[simp] theorem updLd_ld (d : Dev) (f : Loader → Loader) : (updLd f d).ld = f d.ld := rfl
@[simp] theorem updLd_mordant (d : Dev) (f : Loader → Loader) : (updLd f d).mordant = d.mordant := rfl
@[simp] theorem updLd_run (d : Dev) (f : Loader → Loader) : (updLd f d).run = d.run := rfl
@[simp] theorem updLd_trail (d : Dev) (f : Loader → Loader) : (updLd f d).trail = d.trail := rfl
@[simp] theorem updLd_cap (d : Dev) (f : Loader → Loader) : (updLd f d).cap = d.cap := rfl
@[simp] theorem updLd_bkt (d : Dev) (f : Loader → Loader) : (updLd f d).bkt = d.bkt := rfl
@[simp] theorem updLd_lanes (d : Dev) (f : Loader → Loader) : (updLd f d).lanes = d.lanes := rfl
@[simp] theorem updLd_links (d : Dev) (f : Loader → Loader) : (updLd f d).links = d.links := rfl
@[simp] theorem updLd_sys (d : Dev) (f : Loader → Loader) : (updLd f d).sys = d.sys := rfl
@[simp] theorem updLd_pair (d : Dev) (f : Loader → Loader) : (updLd f d).pair = d.pair := rfl
@[simp] theorem updLd_host (d : Dev) (f : Loader → Loader) : (updLd f d).host = d.host := rfl
@[simp] theorem updLd_keep (d : Dev) (f : Loader → Loader) : (updLd f d).keep = d.keep := rfl
@[simp] theorem updLd_sn (d : Dev) (f : Loader → Loader) : (updLd f d).sn = d.sn := rfl
@[simp] theorem updLd_events (d : Dev) (f : Loader → Loader) : (updLd f d).events = d.events := rfl
@[simp] theorem updLd_trc (d : Dev) (f : Loader → Loader) : (updLd f d).trc = d.trc := rfl
@[simp] theorem updLd_clk (d : Dev) (f : Loader → Loader) : (updLd f d).clk = d.clk := rfl
@[simp] theorem updLd_th (d : Dev) (f : Loader → Loader) : (updLd f d).th = d.th := rfl
@[simp] theorem updLd_pins (d : Dev) (f : Loader → Loader) : (updLd f d).pins = d.pins := rfl
@[simp] theorem updLd_free (d : Dev) (f : Loader → Loader) : (updLd f d).free = d.free := rfl

/-! ## `updClk` -/

@[simp] theorem updClk_fuse (d : Dev) (f : Clk → Clk) : (updClk f d).fuse = d.fuse := rfl
@[simp] theorem updClk_tiles (d : Dev) (f : Clk → Clk) : (updClk f d).tiles = d.tiles := rfl
@[simp] theorem updClk_exch (d : Dev) (f : Clk → Clk) : (updClk f d).exch = d.exch := rfl
@[simp] theorem updClk_tio (d : Dev) (f : Clk → Clk) : (updClk f d).tio = d.tio := rfl
@[simp] theorem updClk_mem (d : Dev) (f : Clk → Clk) : (updClk f d).mem = d.mem := rfl
@[simp] theorem updClk_regions (d : Dev) (f : Clk → Clk) : (updClk f d).regions = d.regions := rfl
@[simp] theorem updClk_image (d : Dev) (f : Clk → Clk) : (updClk f d).image = d.image := rfl
@[simp] theorem updClk_ld (d : Dev) (f : Clk → Clk) : (updClk f d).ld = d.ld := rfl
@[simp] theorem updClk_mordant (d : Dev) (f : Clk → Clk) : (updClk f d).mordant = d.mordant := rfl
@[simp] theorem updClk_run (d : Dev) (f : Clk → Clk) : (updClk f d).run = d.run := rfl
@[simp] theorem updClk_trail (d : Dev) (f : Clk → Clk) : (updClk f d).trail = d.trail := rfl
@[simp] theorem updClk_cap (d : Dev) (f : Clk → Clk) : (updClk f d).cap = d.cap := rfl
@[simp] theorem updClk_bkt (d : Dev) (f : Clk → Clk) : (updClk f d).bkt = d.bkt := rfl
@[simp] theorem updClk_lanes (d : Dev) (f : Clk → Clk) : (updClk f d).lanes = d.lanes := rfl
@[simp] theorem updClk_links (d : Dev) (f : Clk → Clk) : (updClk f d).links = d.links := rfl
@[simp] theorem updClk_sys (d : Dev) (f : Clk → Clk) : (updClk f d).sys = d.sys := rfl
@[simp] theorem updClk_pair (d : Dev) (f : Clk → Clk) : (updClk f d).pair = d.pair := rfl
@[simp] theorem updClk_host (d : Dev) (f : Clk → Clk) : (updClk f d).host = d.host := rfl
@[simp] theorem updClk_keep (d : Dev) (f : Clk → Clk) : (updClk f d).keep = d.keep := rfl
@[simp] theorem updClk_sn (d : Dev) (f : Clk → Clk) : (updClk f d).sn = d.sn := rfl
@[simp] theorem updClk_events (d : Dev) (f : Clk → Clk) : (updClk f d).events = d.events := rfl
@[simp] theorem updClk_trc (d : Dev) (f : Clk → Clk) : (updClk f d).trc = d.trc := rfl
@[simp] theorem updClk_clk (d : Dev) (f : Clk → Clk) : (updClk f d).clk = f d.clk := rfl
@[simp] theorem updClk_th (d : Dev) (f : Clk → Clk) : (updClk f d).th = d.th := rfl
@[simp] theorem updClk_pins (d : Dev) (f : Clk → Clk) : (updClk f d).pins = d.pins := rfl
@[simp] theorem updClk_free (d : Dev) (f : Clk → Clk) : (updClk f d).free = d.free := rfl

/-! ## `updTh` -/

@[simp] theorem updTh_fuse (d : Dev) (f : Thermos → Thermos) : (updTh f d).fuse = d.fuse := rfl
@[simp] theorem updTh_tiles (d : Dev) (f : Thermos → Thermos) : (updTh f d).tiles = d.tiles := rfl
@[simp] theorem updTh_exch (d : Dev) (f : Thermos → Thermos) : (updTh f d).exch = d.exch := rfl
@[simp] theorem updTh_tio (d : Dev) (f : Thermos → Thermos) : (updTh f d).tio = d.tio := rfl
@[simp] theorem updTh_mem (d : Dev) (f : Thermos → Thermos) : (updTh f d).mem = d.mem := rfl
@[simp] theorem updTh_regions (d : Dev) (f : Thermos → Thermos) : (updTh f d).regions = d.regions := rfl
@[simp] theorem updTh_image (d : Dev) (f : Thermos → Thermos) : (updTh f d).image = d.image := rfl
@[simp] theorem updTh_ld (d : Dev) (f : Thermos → Thermos) : (updTh f d).ld = d.ld := rfl
@[simp] theorem updTh_mordant (d : Dev) (f : Thermos → Thermos) : (updTh f d).mordant = d.mordant := rfl
@[simp] theorem updTh_run (d : Dev) (f : Thermos → Thermos) : (updTh f d).run = d.run := rfl
@[simp] theorem updTh_trail (d : Dev) (f : Thermos → Thermos) : (updTh f d).trail = d.trail := rfl
@[simp] theorem updTh_cap (d : Dev) (f : Thermos → Thermos) : (updTh f d).cap = d.cap := rfl
@[simp] theorem updTh_bkt (d : Dev) (f : Thermos → Thermos) : (updTh f d).bkt = d.bkt := rfl
@[simp] theorem updTh_lanes (d : Dev) (f : Thermos → Thermos) : (updTh f d).lanes = d.lanes := rfl
@[simp] theorem updTh_links (d : Dev) (f : Thermos → Thermos) : (updTh f d).links = d.links := rfl
@[simp] theorem updTh_sys (d : Dev) (f : Thermos → Thermos) : (updTh f d).sys = d.sys := rfl
@[simp] theorem updTh_pair (d : Dev) (f : Thermos → Thermos) : (updTh f d).pair = d.pair := rfl
@[simp] theorem updTh_host (d : Dev) (f : Thermos → Thermos) : (updTh f d).host = d.host := rfl
@[simp] theorem updTh_keep (d : Dev) (f : Thermos → Thermos) : (updTh f d).keep = d.keep := rfl
@[simp] theorem updTh_sn (d : Dev) (f : Thermos → Thermos) : (updTh f d).sn = d.sn := rfl
@[simp] theorem updTh_events (d : Dev) (f : Thermos → Thermos) : (updTh f d).events = d.events := rfl
@[simp] theorem updTh_trc (d : Dev) (f : Thermos → Thermos) : (updTh f d).trc = d.trc := rfl
@[simp] theorem updTh_clk (d : Dev) (f : Thermos → Thermos) : (updTh f d).clk = d.clk := rfl
@[simp] theorem updTh_th (d : Dev) (f : Thermos → Thermos) : (updTh f d).th = f d.th := rfl
@[simp] theorem updTh_pins (d : Dev) (f : Thermos → Thermos) : (updTh f d).pins = d.pins := rfl
@[simp] theorem updTh_free (d : Dev) (f : Thermos → Thermos) : (updTh f d).free = d.free := rfl

/-! ## `updSn` -/

@[simp] theorem updSn_fuse (d : Dev) (f : Sn → Sn) : (updSn f d).fuse = d.fuse := rfl
@[simp] theorem updSn_tiles (d : Dev) (f : Sn → Sn) : (updSn f d).tiles = d.tiles := rfl
@[simp] theorem updSn_exch (d : Dev) (f : Sn → Sn) : (updSn f d).exch = d.exch := rfl
@[simp] theorem updSn_tio (d : Dev) (f : Sn → Sn) : (updSn f d).tio = d.tio := rfl
@[simp] theorem updSn_mem (d : Dev) (f : Sn → Sn) : (updSn f d).mem = d.mem := rfl
@[simp] theorem updSn_regions (d : Dev) (f : Sn → Sn) : (updSn f d).regions = d.regions := rfl
@[simp] theorem updSn_image (d : Dev) (f : Sn → Sn) : (updSn f d).image = d.image := rfl
@[simp] theorem updSn_ld (d : Dev) (f : Sn → Sn) : (updSn f d).ld = d.ld := rfl
@[simp] theorem updSn_mordant (d : Dev) (f : Sn → Sn) : (updSn f d).mordant = d.mordant := rfl
@[simp] theorem updSn_run (d : Dev) (f : Sn → Sn) : (updSn f d).run = d.run := rfl
@[simp] theorem updSn_trail (d : Dev) (f : Sn → Sn) : (updSn f d).trail = d.trail := rfl
@[simp] theorem updSn_cap (d : Dev) (f : Sn → Sn) : (updSn f d).cap = d.cap := rfl
@[simp] theorem updSn_bkt (d : Dev) (f : Sn → Sn) : (updSn f d).bkt = d.bkt := rfl
@[simp] theorem updSn_lanes (d : Dev) (f : Sn → Sn) : (updSn f d).lanes = d.lanes := rfl
@[simp] theorem updSn_links (d : Dev) (f : Sn → Sn) : (updSn f d).links = d.links := rfl
@[simp] theorem updSn_sys (d : Dev) (f : Sn → Sn) : (updSn f d).sys = d.sys := rfl
@[simp] theorem updSn_pair (d : Dev) (f : Sn → Sn) : (updSn f d).pair = d.pair := rfl
@[simp] theorem updSn_host (d : Dev) (f : Sn → Sn) : (updSn f d).host = d.host := rfl
@[simp] theorem updSn_keep (d : Dev) (f : Sn → Sn) : (updSn f d).keep = d.keep := rfl
@[simp] theorem updSn_sn (d : Dev) (f : Sn → Sn) : (updSn f d).sn = f d.sn := rfl
@[simp] theorem updSn_events (d : Dev) (f : Sn → Sn) : (updSn f d).events = d.events := rfl
@[simp] theorem updSn_trc (d : Dev) (f : Sn → Sn) : (updSn f d).trc = d.trc := rfl
@[simp] theorem updSn_clk (d : Dev) (f : Sn → Sn) : (updSn f d).clk = d.clk := rfl
@[simp] theorem updSn_th (d : Dev) (f : Sn → Sn) : (updSn f d).th = d.th := rfl
@[simp] theorem updSn_pins (d : Dev) (f : Sn → Sn) : (updSn f d).pins = d.pins := rfl
@[simp] theorem updSn_free (d : Dev) (f : Sn → Sn) : (updSn f d).free = d.free := rfl

/-! ## `updRun` -/

@[simp] theorem updRun_fuse (d : Dev) (f : Run → Run) : (updRun f d).fuse = d.fuse := rfl
@[simp] theorem updRun_tiles (d : Dev) (f : Run → Run) : (updRun f d).tiles = d.tiles := rfl
@[simp] theorem updRun_exch (d : Dev) (f : Run → Run) : (updRun f d).exch = d.exch := rfl
@[simp] theorem updRun_tio (d : Dev) (f : Run → Run) : (updRun f d).tio = d.tio := rfl
@[simp] theorem updRun_mem (d : Dev) (f : Run → Run) : (updRun f d).mem = d.mem := rfl
@[simp] theorem updRun_regions (d : Dev) (f : Run → Run) : (updRun f d).regions = d.regions := rfl
@[simp] theorem updRun_image (d : Dev) (f : Run → Run) : (updRun f d).image = d.image := rfl
@[simp] theorem updRun_ld (d : Dev) (f : Run → Run) : (updRun f d).ld = d.ld := rfl
@[simp] theorem updRun_mordant (d : Dev) (f : Run → Run) : (updRun f d).mordant = d.mordant := rfl
@[simp] theorem updRun_run (d : Dev) (f : Run → Run) : (updRun f d).run = f d.run := rfl
@[simp] theorem updRun_trail (d : Dev) (f : Run → Run) : (updRun f d).trail = d.trail := rfl
@[simp] theorem updRun_cap (d : Dev) (f : Run → Run) : (updRun f d).cap = d.cap := rfl
@[simp] theorem updRun_bkt (d : Dev) (f : Run → Run) : (updRun f d).bkt = d.bkt := rfl
@[simp] theorem updRun_lanes (d : Dev) (f : Run → Run) : (updRun f d).lanes = d.lanes := rfl
@[simp] theorem updRun_links (d : Dev) (f : Run → Run) : (updRun f d).links = d.links := rfl
@[simp] theorem updRun_sys (d : Dev) (f : Run → Run) : (updRun f d).sys = d.sys := rfl
@[simp] theorem updRun_pair (d : Dev) (f : Run → Run) : (updRun f d).pair = d.pair := rfl
@[simp] theorem updRun_host (d : Dev) (f : Run → Run) : (updRun f d).host = d.host := rfl
@[simp] theorem updRun_keep (d : Dev) (f : Run → Run) : (updRun f d).keep = d.keep := rfl
@[simp] theorem updRun_sn (d : Dev) (f : Run → Run) : (updRun f d).sn = d.sn := rfl
@[simp] theorem updRun_events (d : Dev) (f : Run → Run) : (updRun f d).events = d.events := rfl
@[simp] theorem updRun_trc (d : Dev) (f : Run → Run) : (updRun f d).trc = d.trc := rfl
@[simp] theorem updRun_clk (d : Dev) (f : Run → Run) : (updRun f d).clk = d.clk := rfl
@[simp] theorem updRun_th (d : Dev) (f : Run → Run) : (updRun f d).th = d.th := rfl
@[simp] theorem updRun_pins (d : Dev) (f : Run → Run) : (updRun f d).pins = d.pins := rfl
@[simp] theorem updRun_free (d : Dev) (f : Run → Run) : (updRun f d).free = d.free := rfl

end Sys2Proof.Machine
end

