-- ==== Sys2Proof/Laws/Tbl.lean ====
section
/-! SUPPORT. Tables and byte memories: a read after a write, and that every write keeps the canonical form. -/

namespace Sys2Proof.Machine

variable {α : Type} [DecidableEq α] {d : α}

theorem twfFrom_cons {lo k : Nat} {v : α} {r : Tbl α} :
    twfFrom d lo ((k, v) :: r) = true ↔ lo ≤ k ∧ v ≠ d ∧ twfFrom d (k + 1) r = true := by
  simp [twfFrom, and_assoc]

/-- The bound of a canonical table may be lowered. -/
theorem twfFrom_mono {lo lo' : Nat} {t : Tbl α} (h : twfFrom d lo t = true) (hl : lo' ≤ lo) : twfFrom d lo' t = true := by
  cases t with
  | nil => rfl
  | cons a r =>
    obtain ⟨k, v⟩ := a
    rw [twfFrom_cons] at h ⊢
    exact ⟨by omega, h.2⟩

/-- A canonical table lists nothing below its bound. -/
theorem tdrop_below {lo i : Nat} {t : Tbl α} (h : twfFrom d lo t = true) (hi : i < lo) : tdrop t i = t := by
  induction t generalizing lo with
  | nil => rfl
  | cons a r ih =>
    obtain ⟨k, v⟩ := a
    rw [twfFrom_cons] at h
    have hk : i ≠ k := by omega
    simp only [tdrop, hk, if_false]
    rw [ih h.2.2 (by omega)]

/-- What a table reads without the entries of a key. -/
theorem tget_tdrop {i j : Nat} {t : Tbl α} : tget d (tdrop t i) j = if j = i then d else tget d t j := by
  induction t with
  | nil => simp [tdrop, tget]
  | cons a r ih =>
    obtain ⟨k, v⟩ := a
    unfold tdrop
    split
    · subst_vars
      rw [ih]
      by_cases hj : j = k <;> simp [tget, hj]
    · by_cases hj : j = k
      · have : j ≠ i := by omega
        simp [tget, hj, Ne.symm ‹i ≠ k›]
      · simp only [tget, hj, if_false]
        exact ih

/-- A write keeps the canonical form. -/
theorem twfFrom_tset {lo i : Nat} {t : Tbl α} {x : α} (h : twfFrom d lo t = true) (hi : lo ≤ i) :
    twfFrom d lo (tset d t i x) = true := by
  induction t generalizing lo with
  | nil =>
    unfold tset
    split
    · rfl
    · rw [twfFrom_cons]; exact ⟨hi, ‹_›, rfl⟩
  | cons a r ih =>
    obtain ⟨k, v⟩ := a
    have h' := h
    rw [twfFrom_cons] at h
    unfold tset
    split
    · rw [tdrop_below h.2.2 (by omega)]
      split
      · exact h'
      · rw [twfFrom_cons, twfFrom_cons]
        exact ⟨hi, ‹_›, by omega, h.2⟩
    · split
      · subst_vars
        rw [tdrop_below h.2.2 (by omega)]
        split
        · exact twfFrom_mono h.2.2 (by omega)
        · rw [twfFrom_cons]; exact ⟨h.1, ‹_›, h.2.2⟩
      · rw [twfFrom_cons]
        exact ⟨h.1, h.2.1, ih h.2.2 (by omega)⟩

theorem twf_tset {i : Nat} {t : Tbl α} {x : α} (h : twf d t = true) : twf d (tset d t i x) = true :=
  twfFrom_tset h (Nat.zero_le i)

theorem twf_tupd {i : Nat} {t : Tbl α} {f : α → α} (h : twf d t = true) : twf d (tupd d t i f) = true := twf_tset h

/-- What any table reads after a write. -/
theorem tget_tset {i j : Nat} {t : Tbl α} {x : α} : tget d (tset d t i x) j = if j = i then x else tget d t j := by
  induction t with
  | nil =>
    unfold tset
    split <;> simp_all [tget]
  | cons a r ih =>
    obtain ⟨k, v⟩ := a
    unfold tset
    by_cases hj : j = i
    · subst hj
      split
      · split
        · simp_all [tget, tget_tdrop, Nat.ne_of_lt]
        · simp [tget]
      · split
        · split
          · simp_all [tget_tdrop]
          · simp [tget]
        · simp_all [tget]
    · split
      · split <;> simp [tget, tget_tdrop, hj]
      · split
        · subst_vars
          split <;> simp [tget, tget_tdrop, hj]
        · by_cases hk : j = k <;> simp [tget, hk, ih, hj]

/-- A write at one key leaves every other key as it was. -/
theorem tget_tset_ne {i j : Nat} {t : Tbl α} {x : α} (hj : j ≠ i) : tget d (tset d t i x) j = tget d t j := by
  rw [tget_tset, if_neg hj]

/-! ## Byte memories -/

theorem mset_wf {m : Mem} {a : Nat} {b : Byte} (h : Memory.wf m = true) : Memory.wf (mset m a b) = true := twf_tset h

theorem mget_mset {m : Mem} {a j : Nat} {b : Byte} : mget (mset m a b) j = if j = a then b else mget m j := tget_tset

theorem mwrite_wf {m : Mem} {a n v : Nat} (h : Memory.wf m = true) : Memory.wf (mwrite m a n v) = true := by
  induction n generalizing m a v with
  | zero => exact h
  | succ n ih => exact ih (mset_wf h)

theorem mwriteBe_wf {m : Mem} {a n v be : Nat} (h : Memory.wf m = true) : Memory.wf (mwriteBe m a n v be) = true := by
  induction n generalizing m a v be with
  | zero => exact h
  | succ n ih =>
    unfold mwriteBe
    split
    · exact ih (mset_wf h)
    · exact ih h

theorem mwriteBytes_wf {m : Mem} {a : Nat} {l : List Byte} (h : Memory.wf m = true) : Memory.wf (mwriteBytes m a l) = true := by
  induction l generalizing m a with
  | nil => exact h
  | cons b r ih => exact ih (mset_wf h)

theorem mwriteWords_wf {m : Mem} {a : Nat} {l : List W64} (h : Memory.wf m = true) : Memory.wf (mwriteWords m a l) = true := by
  induction l generalizing m a with
  | nil => exact h
  | cons b r ih => exact ih (mwrite_wf h)

theorem twfFrom_filter {lo : Nat} {t : Tbl α} {p : Nat × α → Bool} (h : twfFrom d lo t = true) :
    twfFrom d lo (t.filter p) = true := by
  induction t generalizing lo with
  | nil => rfl
  | cons a r ih =>
    obtain ⟨k, v⟩ := a
    rw [twfFrom_cons] at h
    rw [List.filter_cons]
    split
    · rw [twfFrom_cons]; exact ⟨h.1, h.2.1, ih h.2.2⟩
    · exact ih (twfFrom_mono h.2.2 (by omega))

theorem mclear_wf {m : Mem} {a b : Nat} (h : Memory.wf m = true) : Memory.wf (mclear m a b) = true := twfFrom_filter h

/-- A write of bytes leaves every byte outside them as it was. -/
theorem mget_mwrite_ne {m : Mem} {a n v j : Nat} (hj : j < a ∨ a + n ≤ j) : mget (mwrite m a n v) j = mget m j := by
  induction n generalizing m a v with
  | zero => rfl
  | succ n ih =>
    show mget (mwrite (mset m a _) (a + 1) n _) j = _
    rw [ih (by omega)]
    exact tget_tset_ne (by omega)

theorem mget_mwriteBytes_ne {m : Mem} {a j : Nat} {l : List Byte} (hj : j < a ∨ a + l.length ≤ j) :
    mget (mwriteBytes m a l) j = mget m j := by
  induction l generalizing m a with
  | nil => rfl
  | cons b r ih =>
    show mget (mwriteBytes (mset m a b) (a + 1) r) j = _
    simp only [List.length_cons] at hj
    rw [ih (by omega)]
    exact tget_tset_ne (by omega)

/-- A byte of what was written. -/
theorem mget_mwrite {m : Mem} {a n v j : Nat} (hj : j < n) :
    mget (mwrite m a n v) (a + j) = BitVec.ofNat 8 (v / 256 ^ j) := by
  induction n generalizing m a v j with
  | zero => omega
  | succ n ih =>
    show mget (mwrite (mset m a _) (a + 1) n _) (a + j) = _
    cases j with
    | zero => rw [mget_mwrite_ne (by omega), mget_mset]; simp
    | succ j =>
      have e : a + (j + 1) = a + 1 + j := by omega
      rw [e, ih (by omega), Nat.div_div_eq_div_mul, Nat.pow_succ, Nat.mul_comm]

/-- A read after a write of the same bytes gives what was written. -/
theorem mread_mwrite {m : Mem} {a n v : Nat} (hv : v < 256 ^ n) : mread (mwrite m a n v) a n = v := by
  induction n generalizing m a v with
  | zero => simp [mread] at *; omega
  | succ n ih =>
    have h1 : mread (mwrite (mset m a (BitVec.ofNat 8 v)) (a + 1) n (v / 256)) (a + 1) n = v / 256 :=
      ih (by rw [Nat.div_lt_iff_lt_mul (by omega)]; rw [Nat.pow_succ] at hv; exact hv)
    show (mget (mwrite (mset m a _) (a + 1) n _) a).toNat + 256 * mread (mwrite (mset m a _) (a + 1) n _) (a + 1) n = v
    rw [h1, mget_mwrite_ne (by omega), mget_mset]
    simp
    omega

end Sys2Proof.Machine
end

