-- ==== Sys2Proof/Laws/Outcome.lean ====
section
/-! SUPPORT. From a meaning's effect to the statement's terms: what `lift`, `liftAll` and the link events add is interrupt events
alone. -/

namespace Sys2Proof.Machine

theorem noteLines_eq (old new : Dev) : ∃ ev, noteLines old new = new.send ev := by
  unfold noteLines
  split
  · exact ⟨[], by simp [Dev.send]⟩
  · exact ⟨_, rfl⟩

theorem withLinks_eq (f : Dev → Dev) (d : Dev) : ∃ ev, withLinks f d = (f d).send ev := by
  unfold withLinks
  simp only
  split
  · exact ⟨[], by simp [Dev.send]⟩
  · exact ⟨_, rfl⟩

theorem Dev.send_send (d : Dev) (a b : List Event) : (d.send a).send b = d.send (a ++ b) := by simp [Dev.send]

/-! What `send` leaves as it was -/

@[simp] theorem Dev.send_fuse (d : Dev) (ev : List Event) : (d.send ev).fuse = d.fuse := rfl
@[simp] theorem Dev.send_tiles (d : Dev) (ev : List Event) : (d.send ev).tiles = d.tiles := rfl
@[simp] theorem Dev.send_exch (d : Dev) (ev : List Event) : (d.send ev).exch = d.exch := rfl
@[simp] theorem Dev.send_tio (d : Dev) (ev : List Event) : (d.send ev).tio = d.tio := rfl
@[simp] theorem Dev.send_mem (d : Dev) (ev : List Event) : (d.send ev).mem = d.mem := rfl
@[simp] theorem Dev.send_regions (d : Dev) (ev : List Event) : (d.send ev).regions = d.regions := rfl
@[simp] theorem Dev.send_image (d : Dev) (ev : List Event) : (d.send ev).image = d.image := rfl
@[simp] theorem Dev.send_ld (d : Dev) (ev : List Event) : (d.send ev).ld = d.ld := rfl
@[simp] theorem Dev.send_mordant (d : Dev) (ev : List Event) : (d.send ev).mordant = d.mordant := rfl
@[simp] theorem Dev.send_run (d : Dev) (ev : List Event) : (d.send ev).run = d.run := rfl
@[simp] theorem Dev.send_trail (d : Dev) (ev : List Event) : (d.send ev).trail = d.trail := rfl
@[simp] theorem Dev.send_cap (d : Dev) (ev : List Event) : (d.send ev).cap = d.cap := rfl
@[simp] theorem Dev.send_bkt (d : Dev) (ev : List Event) : (d.send ev).bkt = d.bkt := rfl
@[simp] theorem Dev.send_lanes (d : Dev) (ev : List Event) : (d.send ev).lanes = d.lanes := rfl
@[simp] theorem Dev.send_links (d : Dev) (ev : List Event) : (d.send ev).links = d.links := rfl
@[simp] theorem Dev.send_sys (d : Dev) (ev : List Event) : (d.send ev).sys = d.sys := rfl
@[simp] theorem Dev.send_pair (d : Dev) (ev : List Event) : (d.send ev).pair = d.pair := rfl
@[simp] theorem Dev.send_host (d : Dev) (ev : List Event) : (d.send ev).host = d.host := rfl
@[simp] theorem Dev.send_keep (d : Dev) (ev : List Event) : (d.send ev).keep = d.keep := rfl
@[simp] theorem Dev.send_sn (d : Dev) (ev : List Event) : (d.send ev).sn = d.sn := rfl
@[simp] theorem Dev.send_trc (d : Dev) (ev : List Event) : (d.send ev).trc = d.trc := rfl
@[simp] theorem Dev.send_clk (d : Dev) (ev : List Event) : (d.send ev).clk = d.clk := rfl
@[simp] theorem Dev.send_th (d : Dev) (ev : List Event) : (d.send ev).th = d.th := rfl
@[simp] theorem Dev.send_pins (d : Dev) (ev : List Event) : (d.send ev).pins = d.pins := rfl
@[simp] theorem Dev.send_free (d : Dev) (ev : List Event) : (d.send ev).free = d.free := rfl

theorem Leaves.of_lift {c : Instr} {s : State} {f : Dev → Dev} {d : Dev} (h : exec c s = lift f s) (hf : f s.dev = d) :
    Leaves c s d := by
  obtain ⟨ev, e⟩ := noteLines_eq s.dev (f s.dev)
  exact ⟨ev, by rw [h, lift, e, hf]⟩

theorem Leaves.of_links {c : Instr} {s : State} {f : Dev → Dev} {d : Dev} (h : exec c s = lift (withLinks f) s) (hf : f s.dev = d) :
    Leaves c s d := by
  obtain ⟨ev, e⟩ := withLinks_eq f s.dev
  obtain ⟨ev', e'⟩ := noteLines_eq s.dev (withLinks f s.dev)
  exact ⟨ev ++ ev', by rw [h, lift, e', e, hf, Dev.send_send]⟩

theorem LeavesIrq.of_liftAll {c : Instr} {s : State} {f : Irq → Dev → Irq × Dev} {q : Irq} {d : Dev}
    (h : exec c s = liftAll f s) (hf : f s.irq s.dev = (q, d)) : LeavesIrq c s q d := by
  obtain ⟨ev, e⟩ := noteLines_eq s.dev d
  exact ⟨ev, by rw [h, liftAll, hf]; simp only [e]⟩

theorem LeavesIrq.of_linksAll {c : Instr} {s : State} {f : Irq → Dev → Irq × Dev} {q : Irq} {d : Dev}
    (h : exec c s = liftAll (withLinksAll f) s) (hf : f s.irq s.dev = (q, d)) : LeavesIrq c s q d := by
  obtain ⟨ev, e⟩ := withLinks_eq (fun _ => d) s.dev
  obtain ⟨ev', e'⟩ := noteLines_eq s.dev (withLinks (fun _ => d) s.dev)
  rw [e] at e'
  exact ⟨ev ++ ev', by rw [h, liftAll, withLinksAll, hf]; simp only [e, e', Dev.send_send]⟩

theorem Leaves.of_irq {c : Instr} {s : State} {d : Dev} (h : LeavesIrq c s s.irq d) : Leaves c s d := h

theorem Ends.of_leaves {c : Instr} {s : State} {d : Dev} {P : State → Prop} (h : Leaves c s d)
    (hP : ∀ ev, P { s with dev := d.send ev }) : Ends c s P := by
  obtain ⟨ev, e⟩ := h
  exact ⟨_, e, hP ev⟩

theorem Ends.of_lift {c : Instr} {s : State} {f : Dev → Dev} {P : State → Prop} (h : exec c s = lift f s)
    (hP : ∀ ev, P { s with dev := (f s.dev).send ev }) : Ends c s P :=
  Ends.of_leaves (Leaves.of_lift h rfl) hP

end Sys2Proof.Machine
end

