-- ==== Sys2Proof/WellFormed.lean ====
section
/-! DEFINITION. Which commands are well formed: the operands that their Lean types do not bound lie in the ranges that the spec
gives the row's fields. A command that is not well formed is still total: its meaning takes the fields as they stand. -/

namespace Sys2Proof

/-- The offset of an aligned 8-byte word below a bound. -/
def okWord (bound a : Nat) : Bool := decide (a < bound) && a % 8 = 0
/-- An aligned service-network address of 40 bits (Table 15.3). -/
def okAddr (a : Nat) : Bool := okWord (2 ^ 40) a
/-- An address of 40 bits with the size of the access above it: 0 for 8 bytes, 1 for 4 (log entry 99); naturally aligned. -/
def okSized (a : Nat) : Bool := decide (a < 2 ^ 41) && decide (a % (if a < 2 ^ 40 then 8 else 4) = 0)
/-- A frame carries 1 to 32 words (R258, R281). -/
def okFrame (ws : List W64) : Bool := ws ≠ [] && decide (ws.length ≤ 32)
/-- A pair message of a kind, with at most 31 further words (Table 13.3). -/
def okMessage (kind : Nat) (first : W64) (ws : List W64) : Bool := first.toNat / 2 ^ 56 = kind && decide (ws.length ≤ 31)
/-- A host port (R290). -/
def isPcie (p : Port) : Bool := p ≠ .psp
/-- A naturally aligned access of 4 or 8 bytes in the 4 GiB of BAR2 (R294). -/
def okBar2 (offset size : Nat) : Bool := (size = 4 || size = 8) && offset % size = 0 && decide (offset < 2 ^ 32)
/-- The 13 address pins of the parallel slave port carry A[13:1] (R374). -/
def okPsp (address : Nat) : Bool := decide (address < 2 ^ 14) && address % 2 = 0
/-- The fields of a header flit (Table 15.3), with one word of data for each word that a WRITE or POSTED carries. -/
def okPacket (p : Packet) : Bool :=
  decide (p.kind ≤ 4) && decide (p.vn ≤ 2) && decide (p.src < 2048) && decide (p.dst < 2048) && decide (p.tag < 1024)
    && decide (p.status < 16) && decide (p.lenM1 < 64) && okAddr p.addr && decide (p.cls < 8)
    && (p.kind = 0 || p.kind = 3 || p.data.length = p.lenM1 + 1)

/-- A command is well formed. -/
def Instr.wf (i : Instr) : Bool :=
  match i with
  | .clusterStep _ _ => true
  | .barrier _ => true
  | .hamperRearmSetup => true
  | .updateArrival _ => true
  | .markArrival _ _ => true
  | .linkWordRx _ => true
  | .eocSend => true
  | .eocReceive _ => true
  | .queueServe _ _ _ => true
  | .responseAvailable _ _ => true
  | .regionTableWrite _ _ _ _ => true
  | .snHbmAccess _ addr _ => okAddr addr && decide (addr < 0x30_0000_0000)
  | .bankAccess _ _ offset _ => okWord 0x40_0000 offset
  | .hstreamRead _ _ _ => true
  | .hstreamWrite _ _ _ _ => true
  | .reqOwnerWrite _ _ _ _ => true
  | .ownerHandoverDone _ _ => true
  | .load _ => true
  | .streamLoad _ => true
  | .intakeWrite _ _ bytes => bytes ≠ []
  | .imageHeader => true
  | .imageFrame => true
  | .loadEndChecks => true
  | .loadTimeout => true
  | .abort _ _ => true
  | .streamDataRx => true
  | .streamTerminator => true
  | .releaseStage _ => true
  | .mordantFrameCheck => true
  | .mordantRewrite _ => true
  | .runEnable _ _ => true
  | .baseCheckpoint _ => true
  | .run _ _ => true
  | .runCtrlStop _ => true
  | .stop _ => true
  | .runCtrlForceStop _ => true
  | .forceStop _ => true
  | .stopAtWrite _ _ => true
  | .haltN _ _ => true
  | .stopDrainComplete _ => true
  | .internalCheckFailed => true
  | .watchdogExpiry => true
  | .paceCapRelease => true
  | .paceWindow => true
  | .setPace _ => true
  | .checkpointComplete => true
  | .trailPinWrite _ _ => true
  | .rewind _ => true
  | .rewindComplete _ => true
  | .capCtrlArm _ => true
  | .arm _ => true
  | .capCtrlDisarm _ => true
  | .disarm _ => true
  | .captureConfigWrite _ offset _ => okWord 0x1_0000 offset
  | .basketSubmit _ _ => true
  | .submit _ => true
  | .basketDelivery _ => true
  | .basketApplyCompletions => true
  | .basketRingEntry => true
  | .linkCfgWrite _ _ _ => true
  | .linkCtrlTrain _ _ => true
  | .linkTrain _ => true
  | .linkCtrlDown _ _ => true
  | .linkDown _ => true
  | .equaliserAdapted _ => true
  | .blockLock _ _ => true
  | .lockLoss _ => true
  | .trainBlock _ _ _ => true
  | .linkNoSignal _ => true
  | .linkTrainTimeout _ => true
  | .retrainTimeout _ => true
  | .frame _ _ words _ => okFrame words
  | .idle _ _ => true
  | .nakResend _ => true
  | .frameSend _ => true
  | .idleSend _ => true
  | .loopWrite _ _ _ => true
  | .patCtrlWrite _ _ _ => true
  | .checkerLock _ => true
  | .scanStart _ _ _ => true
  | .scanPointDone _ errors => decide (errors < 2 ^ 40)
  | .partnerLost _ => true
  | .sysCtrlPlanStop _ => true
  | .planStop _ => true
  | .sysCtrlPlanRewind _ => true
  | .planRewind _ => true
  | .sysCtrlSettle _ => true
  | .settle _ => true
  | .pairLinkTrain => true
  | .pairCfgWrite _ _ => true
  | .heartbeatSend => true
  | .heartbeat word => okMessage 1 word []
  | .heartbeatMissed => true
  | .mirrorSend => true
  | .mirrorData word words => okMessage 2 word words
  | .mirrorDone word cycle => okMessage 3 word [cycle]
  | .relay _ => true
  | .relayCmd word words => okMessage 4 word words
  | .relayRsp word words => okMessage 5 word words
  | .pairCtrlDetach _ => true
  | .detach _ => true
  | .detachMsg word => okMessage 6 word []
  | .detachAck word => okMessage 7 word []
  | .detachTimeout => true
  | .pcieReset port => isPcie port
  | .flr port _ => isPcie port
  | .pcieLinkUp port => isPcie port
  | .doorbell _ _ => true
  | .hello _ => true
  | .goodbye _ => true
  | .regRead _ => true
  | .regWrite _ _ => true
  | .dump _ => true
  | .dumpComplete => true
  | .powerState _ => true
  | .logRead _ => true
  | .selftest _ => true
  | .selftestComplete _ => true
  | .fwInfo _ => true
  | .fwStage _ => true
  | .fwCommit _ => true
  | .fwConfirm _ => true
  | .keySet _ => true
  | .policySet _ => true
  | .snCtrlGo _ _ _ _ => true
  | .bar2Access port offset size _ _ => isPcie port && okBar2 offset size
  | .protSeatWrite _ _ _ => true
  | .mirrorRefresh => true
  | .snRequest p _ => okPacket p
  | .snResponse node tag => decide (node < 2048) && decide (tag < 1024)
  | .deadTarget _ => true
  | .snDeadWrite _ _ _ => true
  | .revival _ => true
  | .domainOff _ => true
  | .domainWake _ => true
  | .snRtDataWrite _ _ => true
  | .snEpochSwap _ _ => true
  | .epochDrainDone => true
  | .irqEvent _ => true
  | .irqClaim _ _ => true
  | .irqComplete _ _ _ => true
  | .irqSet _ _ _ => true
  | .irqPendingWrite _ _ _ => true
  | .msixMessage _ => true
  | .traceEnable _ _ => true
  | .traceDisable _ _ => true
  | .traceFlushDone => true
  | .traceFlush _ => true
  | .pageFlushTimeout => true
  | .tracePacket _ => true
  | .tracePageWrite => true
  | .traceHostRdWrite _ _ => true
  | .corePowerDown _ _ => true
  | .coreWake _ => true
  | .clockSourceFailure _ => true
  | .clockFailStopTimeout => true
  | .ioscReady => true
  | .xtalOk => true
  | .useXtal _ => true
  | .powerOnReset _ => true
  | .resetN _ => true
  | .resetKey _ => true
  | .bootWatchdog => true
  | .startupStage _ => true
  | .tscSet _ _ => true
  | .pwrCtrlSleep _ => true
  | .pwrCtrlDeep _ => true
  | .powerEntryStart => true
  | .powerEntryDone => true
  | .wake _ => true
  | .wakeN _ => true
  | .wakeTimer => true
  | .powerExitDone => true
  | .thermosTick _ => true
  | .throttle => true
  | .throttleStep => true
  | .throttleClear => true
  | .tempWarning => true
  | .thermalTrip => true
  | .railFault _ => true
  | .pmbAlert _ => true
  | .wearLedgerWrite => true
  | .hbmcRunEnWrite _ _ => true
  | .pwrOkFall => true
  | .tioVddioChange _ _ => true
  | .pspWrite address _ _ => okPsp address
  | .pspRead address => okPsp address
  | .spiRead address => okAddr address
  | .spiWrite address _ _ => okAddr address
  | .spiWriteStatus => true
  | .extest => true
  | .idcode => true
  | .samplePreload => true
  | .extestPulse => true
  | .extestTrain => true
  | .highz => true
  | .clamp => true
  | .bypass => true
  | .registerWrite _ _ address _ => okSized address
  | .lanesDownReached _ => true
  | .pllRelock => true
  | .refclkLAppears _ => true
  | .pciePortReady port => isPcie port
  | .tapReset => true

end Sys2Proof
end

