-- ==== Sys2Proof/Tests/Slice0.lean ====
section
/-! SUPPORT. Tests: the spec's worked examples, and for each obligation with hypotheses a state and operands that meet them, one for
each of its clauses. -/

namespace Sys2Proof.Tests

set_option maxRecDepth 100000
set_option Elab.async false

open Sys2Proof Sys2Proof.Machine

/-! ## Small states -/

/-- The module in a state, its start-up complete. -/
def up (st : ModState) : Dev := { Dev.reset with run.st := st, clk.stage := 5 }
def on (d : Dev) : State := ⟨[], Irq.reset, d⟩
def irqOn (q : Irq) (d : Dev) : State := ⟨[], q, d⟩
def cmd (op : Nat) (ps : List W64) : Cmd := ⟨.manager, false, op, 7, 8 * ps.length, ps, false, 0, .a, 0⟩
/-- The manager seat's command is the oldest accepted one. -/
def turn (op : Nat) (ps : List W64) (d : Dev) : State := on { d with host.order := [cmd op ps] }
/-- Physical tile 0, placed in the ACTIVE region 0. -/
def tile (T : Tile) (d : Dev) : Dev :=
  { d with tiles := [(0, { T with placed := true, loaded := true })], regions := [(0, { Region.reset with st := .active, placed := true })] }
/-- A tile with queue context 0 of a kind, 8 byte words, 4 entries, over 4 words at address 0. -/
def queue (kind : Nat) (X : Ctx) : Tile :=
  { Tile.reset with
    stores := [(storeKey kQSHAPE 16, [(0, BitVec.ofNat 128 (0x000F_0100 + kind + (if kind = 2 ∨ kind = 3 then 0x8000 else 0))), (1, 4)])]
    ctxs := [(0, X)], banks := [(0, ⟨.fabric, .fabric, false, false⟩)] }
/-- One HBM region entry of a kind. -/
def hbm (kind base size : Nat) (d : Dev) : Dev :=
  { d with mem.regionBase := [(0, w64 base)], mem.regionSize := [(0, word [(63, 1, 1), (60, 3, kind), (0, 38, size)])] }
/-- The link of lane 0 alone, in exchange mode, with its lane in a state. -/
def link (st : LaneSt) (E : Link) (d : Dev) : Dev :=
  { d with links := [(0, { E with cfg := 0x8030 })], lanes := [(0, { Lane.reset with st := st })], clk.refclk := 1, clk.calibrated := 1 }
/-- The pair link, with its eight lanes in a state. -/
def pairLanes (st : LaneSt) (d : Dev) : Dev :=
  { d with lanes := (List.range 8).map fun i => (1024 + i, { Lane.reset with st := st }), clk.refclk := 1, clk.calibrated := 1 }
/-- The step word of an idle BP: action 0, SEL 0xFF, operands CON 0. -/
def nop : BitVec 88 := stepEncode (BitVec.ofNat 80 (0xFF <<< 68))
/-- A tile whose cluster 15 has idle step words at step 0, but for that of BP 0. -/
def stepsWith (w : BitVec 88) : Tile :=
  { Tile.reset with stores := [(storeKey kINSTR 15, (List.range 64).map fun b => (1024 * b, (if b = 0 then w else nop).setWidth 128))] }
def nops : Tile := stepsWith nop
/-- A SEND of cluster 15 on outbound port 0, whose channel inbound port 5 of cluster 14 is bound to: the step word's payload, the tile. -/
def sendStep : Nat := 3 * 2 ^ 76 + 0xFFFF_FFFF_FFFF_FFFF
def sendTile : Tile :=
  { stepsWith (stepEncode (BitVec.ofNat 80 sendStep)) with stores := (stepsWith (stepEncode (BitVec.ofNat 80 sendStep))).stores ++
      [(storeKey kBIND 14, [(34, BitVec.ofNat 128 ((2 ^ 63 + 960) * 2 ^ 64))]), (storeKey kBIND 15, [(0, BitVec.ofNat 128 (2 ^ 62))])] }
/-- A tile with an uncorrectable commit entry, its clusters done. -/
def badTile : Tile :=
  { Tile.reset with
    stores := [(storeKey kCOMMIT 0, [(0, 3)])], clusters := (List.range 16).map fun c => (c, { Cluster.reset with done := true }) }
/-- A stored frame of no line, with the CRC of the padding, and one that no CRC matches; the module whose tile 0 stores one. -/
def passed : FrameRec := ⟨3, 16, 0, 0, crc32c (List.replicate 4096 0), 5⟩
def mismatched : FrameRec := ⟨3, 16, 0, 0, 2 ^ 32, 5⟩
theorem crc_ne (l : List Byte) : crc32c l ≠ 2 ^ 32 := Nat.ne_of_lt (BitVec.isLt _)
def storing (f : FrameRec) : State := on (tile { Tile.reset with frames := [passed, f, passed] } (up .running))
def ent (op : Nat) : QEnt := ⟨op, 1, 0x1234, 255, 0, false, false, false, false, 0⟩

/-! ## From a check of the gate's answer to the statements' hypotheses -/

theorem passes_mk {m : Master} {a : Nat} {s : State} (h : (enter m a s.dev).1 = 0) : Passes m a s (enter m a s.dev).2 := Prod.ext h rfl
theorem arrives_mk {m : Master} {w : Bool} {a : Nat} {s : State} (h : (gate m w (askAt w a) s.dev).1 = 0) :
    Arrives m w a s (gate m w (askAt w a) s.dev).2 := Prod.ext h rfl
theorem eta_mk {α β : Type} (p : α × β) : p = (p.1, p.2) := rfl
theorem except_mk {α β : Type} {x : Except α β} {v : β} (h : x.toOption = some v) : x = .ok v := by
  cases x with
  | error e => simp [Except.toOption] at h
  | ok w => simpa [Except.toOption] using h
theorem error_mk {α β : Type} {x : Except α β} {e : α} (h : (match x with | .error e => some e | .ok _ => none) = some e) :
    x = .error e := by
  cases x with
  | error e' => simpa using h
  | ok w => simp at h
theorem pair_mk {α β : Type} {p : α × β} {n : α} (h : p.1 = n) : p = (n, p.2) := Prod.ext h rfl

/-! ## Images, commands and packets -/

/-- A full image of one virtual tile, L = 16 and one frame, with its header's CRC-32C. -/
def goodHeader : List Byte :=
  [90, 80, 69, 73, 4, 0, 0, 0, 164, 2, 1, 0, 16, 0, 255, 8, 1, 0, 0, 0, 1, 0, 0, 0, 64, 17, 0, 0, 0, 0, 0, 0]
    ++ List.replicate 220 0 ++ [136, 88, 195, 250]
/-- A partial image of that region. -/
def partialHeader : List Byte :=
  [90, 80, 69, 73, 4, 0, 2, 0, 164, 2, 1, 0, 16, 0, 255, 8, 1, 0, 0, 0, 1, 0, 0, 0, 64, 17, 0, 0, 0, 0, 0, 0]
    ++ List.replicate 220 0 ++ [119, 174, 32, 119]
/-- A STATE_INIT frame of one zero line. -/
def frameHead : List Byte :=
  [90, 80, 69, 70, 0, 0, 0, 0, 0, 0, 0, 3, 0, 0, 0, 0, 16, 0, 255, 0, 137, 65, 249, 152] ++ List.replicate 36 0 ++ [154, 93, 80, 6]
def goodFrame : List Byte := frameHead ++ List.replicate 4096 0
/-- The terminator of a stream of one image. -/
def terminator : List Byte := [90, 80, 69, 90, 1, 0, 0, 0, 0, 0, 0, 0, 28, 8, 114, 249]
/-- KEY_SET of key slot 0 with the base point of P-384. -/
def basePoint : List W64 :=
  [0, 0x37058bbe22ca87aa, 0x74ad20f31ec7b18e, 0x989ba78b623b1d6e, 0x382a5482e041f759, 0x6c2955bf5df20255, 0xb70a7672385e543a,
    0x6f2c26964ade1736, 0x29dc9292bf989e5d, 0x7c149a28bd1df4f8, 0xc0b8f0b51331dae9, 0x9d817e1dceb1600a, 0x5f0eea907c1d437a]
/-- The READY head of flow 3 for port 0. -/
def readyDesc : Desc := ⟨7, 0, 0, 3, [], 5, 2, 0, 0, 0, [], 0, 0, false⟩
/-- A replayed design cycle 1 whose log holds item 5 of flow 3 for port 0. -/
def replayDev : Dev :=
  tile (queue 2 Ctx.reset) { up .running with bkt.delivOpen := true, trail.replay := 1, trail.logRecs := [(0, [⟨1, [placeWord 6 0 0 (3 <<< 24), 5]⟩])] }
/-- A service core's READ of RUN_CTRL. -/
def packet : Packet := ⟨0, 0, false, 0x401, 0x40A, 5, 0, 0, 255, 0x60_0007_0000, 5, []⟩
/-- Every power domain OFF. -/
def allOff : Tbl (BitVec 3) := (List.range 15).map fun m => (m, 2)

/-! ## A frame's payload CRC, in blocks of 512 bytes -/

theorem zeros_0 : (List.replicate 512 (0 : Byte)).foldl crcByte 4294967295 = 3473084991 := by decide +kernel
theorem zeros_1 : (List.replicate 512 (0 : Byte)).foldl crcByte 3473084991 = 290529667 := by decide +kernel
theorem zeros_2 : (List.replicate 512 (0 : Byte)).foldl crcByte 290529667 = 175100626 := by decide +kernel
theorem zeros_3 : (List.replicate 512 (0 : Byte)).foldl crcByte 175100626 = 1534491824 := by decide +kernel
theorem zeros_4 : (List.replicate 512 (0 : Byte)).foldl crcByte 1534491824 = 1307576961 := by decide +kernel
theorem zeros_5 : (List.replicate 512 (0 : Byte)).foldl crcByte 1307576961 = 3746741852 := by decide +kernel
theorem zeros_6 : (List.replicate 512 (0 : Byte)).foldl crcByte 3746741852 = 4151263722 := by decide +kernel
theorem zeros_7 : (List.replicate 512 (0 : Byte)).foldl crcByte 4151263722 = 1728495222 := by decide +kernel
theorem crc_zeros : crc32c (List.replicate 4096 (0 : Byte)) = 2566472073 := by
  have e : List.replicate 4096 (0 : Byte) = List.replicate 512 0 ++ (List.replicate 512 0 ++ (List.replicate 512 0 ++
      (List.replicate 512 0 ++ (List.replicate 512 0 ++ (List.replicate 512 0 ++ (List.replicate 512 0 ++ List.replicate 512 0)))))) := by
    simp only [List.replicate_append_replicate]
  unfold crc32c
  rw [e]
  simp only [List.foldl_append]
  rw [zeros_0, zeros_1, zeros_2, zeros_3, zeros_4, zeros_5, zeros_6, zeros_7]
  decide +kernel
/-- A load of goodFrame's image, before the frame. -/
def frameDev : Dev :=
  { up .loading with ld.phase := .frames, ld.intake := goodFrame, ld.hdr.frames := 2, ld.hdr.regionMask := 1, ld.plan := [(0, 0)] }
def lastDev : Dev := { frameDev with ld.hdr.frames := 1 }
theorem goodFrame_payload : (parseFrame (goodFrame.take 4160)).payload = List.replicate 4096 0 := by
  have ht : goodFrame.take 4160 = goodFrame := List.take_of_length_le (by rw [goodFrame, List.length_append, List.length_replicate]; decide)
  show (((goodFrame.take 4160).drop 64).take 4096) = _
  rw [ht, goodFrame, List.drop_left' (by decide)]
  exact List.take_of_length_le (Nat.le_of_eq List.length_replicate)
theorem goodFrame_rest (p : List Byte) (hp : p = List.replicate 4096 0) : ((p.drop 16).any fun x => decide (x ≠ 0)) = false := by
  subst hp; simp
/-- R149: a STATE_INIT frame that fails none of the checks. -/
theorem frameCheck_none {d : Dev} {f : Frame}
    (h : f.bytes.take 4 = [0x5A, 0x50, 0x45, 0x46] ∧ leAt f.bytes 0x3C 4 = crc32c (f.bytes.take 0x3C) ∧ f.seq = d.ld.frameSeq ∧
      f.target = d.ld.hdr.target ∧ (decide (d.ld.hdr.vtiles ≤ f.vtile) || !d.ld.hdr.regionMask.testBit (f.vtile / 16)) = false ∧
      storeSize f.kind f.cluster = 0x800 ∧ f.kind = 3 ∧ f.offset = 0 ∧ f.len = 16 ∧
      (nonZero f.bytes 0x13 1 || nonZero f.bytes 0x18 36) = false ∧
      ((frameLines f).any fun x => tget false (coverOf d f.vtile f.key) x.1) = false)
    (h8 : f.pcrc = crc32c f.payload) (h9 : ((f.payload.drop 16).any fun x => decide (x ≠ 0)) = false) : frameCheck d f = none := by
  obtain ⟨h0, h1, h2, h3, h4, h5, hk, ho, hl, h6, h7⟩ := h
  simp only [Bool.or_eq_false_iff] at h4 h6
  simp only [frameCheck, h0, ← h1, h2, h3, h4, h5, ho, hl, h6, h7, ← h8, h9]
  simp [frameWords, hk]
theorem goodFrame_ok : frameCheck (updLd (fun L => { L with intake := L.intake.drop 4160, manifest := [] }) frameDev)
    (parseFrame (goodFrame.take 4160)) = none :=
  frameCheck_none (by decide +kernel) (by rw [goodFrame_payload, crc_zeros]; decide +kernel) (goodFrame_rest _ goodFrame_payload)
theorem lastFrame_ok : frameCheck (updLd (fun L => { L with intake := L.intake.drop 4160, manifest := [] }) lastDev)
    (parseFrame (goodFrame.take 4160)) = none :=
  frameCheck_none (by decide +kernel) (by rw [goodFrame_payload, crc_zeros]; decide +kernel) (goodFrame_rest _ goodFrame_payload)

/-! ## Well-formedness: an ill-formed command for each check, and a well-formed neighbour -/

theorem test_wf_hbm : (Instr.snHbmAccess .core 4 .read).wf = false ∧ (Instr.snHbmAccess .core 0x30_0000_0000 .read).wf = false ∧
    (Instr.snHbmAccess .core 0x2F_FFFF_FFF8 .read).wf = true := by decide
theorem test_wf_bank : (Instr.bankAccess .core 0 0x40_0000 .read).wf = false ∧ (Instr.bankAccess .core 0 0x3F_FFF8 .read).wf = true := by
  decide
theorem test_wf_frame : (Instr.frame 0 0 [] true).wf = false ∧ (Instr.frame 0 0 (List.replicate 33 0) true).wf = false ∧
    (Instr.frame 0 0 [0] true).wf = true := by decide
theorem test_wf_heartbeat : (Instr.heartbeat 0).wf = false ∧ (Instr.heartbeat 0x0100_0000_0000_0000).wf = true := by decide
theorem test_wf_message : (Instr.mirrorData 0x0200_0000_0000_0000 (List.replicate 32 0)).wf = false := by decide
theorem test_wf_port : (Instr.pcieReset .psp).wf = false ∧ (Instr.pciePortReady .b).wf = true := by decide
theorem test_wf_bar2 : (Instr.bar2Access .a 4 8 .read PinEnv.none).wf = false ∧ (Instr.bar2Access .a (2 ^ 32) 4 .read PinEnv.none).wf = false ∧
    (Instr.bar2Access .psp 0 4 .read PinEnv.none).wf = false ∧ (Instr.bar2Access .b 4 4 .read PinEnv.none).wf = true := by decide
theorem test_wf_psp : (Instr.pspRead 1).wf = false ∧ (Instr.pspRead 0x4000).wf = false ∧ (Instr.pspRead 0x3FFE).wf = true := by decide
theorem test_wf_packet : (Instr.snRequest { packet with kind := 1 } PinEnv.none).wf = false ∧
    (Instr.snRequest { packet with addr := 2 ^ 40 } PinEnv.none).wf = false ∧ (Instr.snRequest packet PinEnv.none).wf = true := by decide
theorem test_wf_others : (Instr.intakeWrite .run .a []).wf = false ∧ (Instr.scanPointDone 0 (2 ^ 40)).wf = false ∧
    (Instr.snResponse 2048 0).wf = false ∧ (Instr.spiRead 1).wf = false ∧ (Instr.captureConfigWrite .core 0x1_0000 0).wf = false ∧
    (Instr.registerWrite .run .a 4 0).wf = false := by decide

/-! ## Decoding and the queue -/

/-- The table gives no row any bits: no word spells a command. -/
theorem test_decode : decodeTableWord 64 0x0101_0008_0001_0000 = none := by decide
theorem test_fetch : State.reset.withFetchWord 64 5 = State.reset := rfl
/-- The front command runs first and leaves the queue. -/
theorem test_front : step { State.reset with pending := [.bypass, .highz] } =
    exec .bypass { State.reset with pending := [.highz] } := rfl

/-! ## Reset -/

/-- R168, R355: the module resets to BOOT with no start-up stage passed. -/
theorem test_reset : State.reset.dev.run.st = .boot ∧ State.reset.dev.clk.stage = 0 ∧ State.reset.pending = [] := by decide
/-- Table 14.10: the protection of the seats at reset. -/
theorem test_reset_prot : State.reset.dev.host.diag.prot = 0x10B0_0000_0000_0000 ∧ State.reset.dev.host.board.prot = 0xC630_0000_FFFF_FFFF := by
  decide

/-! ## The spec's worked examples -/

/-- Example 3.1: the check field of a CHAIN word. -/
theorem test_check_bits : stepEncode 0x7FF0_E896_FFEF_FE80_1800 = 0x69_7FF0_E896_FFEF_FE80_1800 := by decide +kernel
/-- Example 3.2, BP 1: A = 1, B = 1, no carry in, give sum 0 and carry 1. -/
theorem test_chain : (fun r : Bp × Carry × Bool => (r.1.res.getLsbD 5, r.2.1.map (·.1)))
    (evalBp Tile.reset 0 16 true 5 none { Bp.reset with sta := 3 } (stepW 0x7FF0_E896_FFEF_FE80_1800)) = (false, some true) := by
  decide +kernel
/-- Example 3.2, BP 3: A = 1, B = 0 and a carry in give sum 0 and carry 1. -/
theorem test_chain_carry : (fun r : Bp × Carry × Bool => (r.1.res.getLsbD 5, r.2.1.map (·.1)))
    (evalBp Tile.reset 0 16 true 5 (some (true, true)) { Bp.reset with sta := 1 } (stepW 0x7FF0_E896_FFEF_FE80_1800)) =
    (false, some true) := by decide +kernel
/-- R133: the check value of CRC-32C, of the bytes "123456789". -/
theorem test_crc32c : crc32c [0x31, 0x32, 0x33, 0x34, 0x35, 0x36, 0x37, 0x38, 0x39] = 0xE306_9283 := by decide +kernel
/-- R258: the check value of the link CRC, of the same bytes. -/
theorem test_crc16 : crcBits 72 0x31_3233_3435_3637_3839 0xFFFF = 0x29B1 := by decide +kernel
/-- Example 12.1: lanes 512–515 of MODID 4. -/
def lanes512 : Dev := { up .idle with fuse.modid := 4, links := [(512, { Link.reset with cfg := 0x9430 })] }
theorem test_train_out : trainOut lanes512 512 512 = 0xA332_A004_A400_0000 ∧ trainOut lanes512 512 515 = 0xA332_A604_A400_0000 := by
  decide +kernel
/-- Example 12.1, order 4: the partner's block passes the checks with version 2; a width of 8 would fail them. -/
theorem test_train_check : trainCheck lanes512 512 512 0xA321_2005_A200_0000 0 = 0 ∧
    version (linkCfg lanes512 512) 0xA321_2005_A200_0000 = 2 ∧
    trainCheck { lanes512 with links := [(512, { Link.reset with cfg := 0x9630 })] } 512 512 0xA321_2005_A200_0000 0 = 0x0707 := by
  decide +kernel
/-- Example 14.1: HELLO on the manager seat of MODID 4, which runs Fovia 3.1.7. -/
def helloed : Dev :=
  match exec (.hello .manager) (on { up .idle with
    fuse.modid := 4, keep.verA := 0x0301_0007
    host.order := [{ cmd 0x0101 [0x0000_0000_0200_0204] with tag := 1 }] }) with
  | .next t => t.dev
  | _ => Dev.reset
theorem test_hello : (List.range 3).map (fun i => mread helloed.host.manager.rspBuf (8 * i) 8) =
    [0x0000_0010_0001_0000, 0xA401_1204_0000_0204, 0x0000_0000_0301_0007] := by decide +kernel
/-- Example 10.1: the budget B_eff and the slot size S. -/
theorem test_capture_sizes : capBudget { Cap.reset with f := 2 } 1024 = 153600 ∧ capSlot (32 * 2 ^ 30) 1024 = 8 * 2 ^ 20 := by decide +kernel
/-- Example 16.1, order 1: the SYNC that opens page 7. -/
theorem test_page_opens : (openPage 5000000000 { Trace.reset with seq := 7 }).page =
    some [0xFF02_0001_2A05_F200, 0x0000_0001_2A05_F200, 0x0000_0000_0000_0007] := by decide +kernel
/-- Example 17.1, orders 2 to 4: each step of a throttle takes 25 mV. -/
theorem test_throttle_step : (match exec .throttleStep (on { up .running with th.throttling := true, th.powerW := 1010, th.setMv := 825 }) with
    | .next t => t.dev.th.setMv
    | _ => 0) = 800 := by decide +kernel

/-! ## Witnesses: the hypotheses of each clause of an obligation, met together -/

theorem witness_StepRunsFront :
    (∃ c : Instr, ∃ rest : List Instr, ∃ s : State, s.pending = c :: rest) :=
  ⟨.pwrOkFall, [], { State.reset with pending := [.pwrOkFall] }, by decide +kernel⟩

theorem witness_ClusterStepCompletes :
    (∃ s : State, ∃ p : Fin 528, ∃ c : Fin 16, ∃ ws : List (Nat × StepW × Bool), 
      let C := clusterOf (tileOf s.dev p) c
      
      let d := readyStep p c s.dev
      
      let full := s.dev.run.fullPass
      
      let w := plainWords ws
      cycleOpen s.dev = true ∧ tileActive s.dev p = true ∧ C.done = false ∧ C.ecc = none ∧ fetchStep (tileOf s.dev p) c C.step 64 = .ok ws ∧ admission d p c full w = none) ∧
    (∃ s : State, ∃ p : Fin 528, ∃ c : Fin 16, ∃ b : Nat, 
      let C := clusterOf (tileOf s.dev p) c
      cycleOpen s.dev = true ∧ tileActive s.dev p = true ∧ C.done = false ∧ C.ecc = none ∧ fetchStep (tileOf s.dev p) c C.step 64 = .error b) ∧
    (∃ s : State, ∃ p : Fin 528, ∃ c : Fin 16, ∃ ws : List (Nat × StepW × Bool), ∃ why : Nat × Nat × Nat, 
      let C := clusterOf (tileOf s.dev p) c
      cycleOpen s.dev = true ∧ tileActive s.dev p = true ∧ C.done = false ∧ C.ecc = none ∧ fetchStep (tileOf s.dev p) c C.step 64 = .ok ws ∧ admission (readyStep p c s.dev) p c s.dev.run.fullPass (plainWords ws) = some why) ∧
    (∃ s : State, ∃ p : Fin 528, ∃ c : Fin 16, (cycleOpen s.dev = false ∨ tileActive s.dev p = false ∨ (clusterOf (tileOf s.dev p) c).done = true ∨ (clusterOf (tileOf s.dev p) c).ecc.isSome = true)) :=
  ⟨⟨on (tile sendTile { up .running with run.fullPass := true }), 0, 15, (List.range 64).map fun b => (b, stepW (if b = 0 then sendStep else 0xFF <<< 68), false), by decide +kernel, by decide +kernel, by decide +kernel, by decide +kernel, except_mk (by decide +kernel), by decide +kernel⟩,
   ⟨on (tile (stepsWith 3) (up .running)), 0, 15, 0, by decide +kernel, by decide +kernel, by decide +kernel, by decide +kernel, error_mk (by decide +kernel)⟩,
   ⟨on (tile (stepsWith (stepEncode (BitVec.ofNat 80 (1 <<< 76)))) (up .running)), 0, 15, (List.range 64).map fun b => (b, stepW (if b = 0 then 1 <<< 76 else 0xFF <<< 68), false), (1, 0, 0), by decide +kernel, by decide +kernel, by decide +kernel, by decide +kernel, except_mk (by decide +kernel), by decide +kernel⟩,
   ⟨on (up .idle), 0, 15, by decide +kernel⟩⟩

theorem witness_EvaluateBp :
    (∃ T : Tile, ∃ c : Nat, ∃ L : Nat, ∃ st : Nat, ∃ full : Bool, ∃ cy : Carry, ∃ B : Bp, ∃ w : StepW, st < 1024 ∧ isChain w.act = false ∧ quietPlain T c L full B w = true) ∧
    (∃ T : Tile, ∃ c : Nat, ∃ L : Nat, ∃ st : Nat, ∃ full : Bool, ∃ cy : Carry, ∃ B : Bp, ∃ w : StepW, st < 1024 ∧ isChain w.act = false ∧ quietPlain T c L full B w = false) ∧
    (∃ T : Tile, ∃ c : Nat, ∃ L : Nat, ∃ st : Nat, ∃ full : Bool, ∃ cy : Carry, ∃ B : Bp, ∃ w : StepW, st < 1024 ∧ isChain w.act = false ∧ quietPlain T c L full B w = false) ∧
    (∃ T : Tile, ∃ c : Nat, ∃ L : Nat, ∃ st : Nat, ∃ full : Bool, ∃ cy : Carry, ∃ B : Bp, ∃ w : StepW, st < 1024 ∧ isChain w.act = false ∧ quietPlain T c L full B w = false ∧ ∃ j, j ≠ st) ∧
    (∃ T : Tile, ∃ c : Nat, ∃ L : Nat, ∃ st : Nat, ∃ full : Bool, ∃ cy : Carry, ∃ B : Bp, ∃ w : StepW, st < 1024 ∧ w.act = 7 ∧ ∃ v, ∃ e, cy = some (v, e) ∧ (e = true ∨ full = true)) ∧
    (∃ T : Tile, ∃ c : Nat, ∃ L : Nat, ∃ st : Nat, ∃ full : Bool, ∃ cy : Carry, ∃ B : Bp, ∃ w : StepW, st < 1024 ∧ (w.act = 7 ∨ w.act = 8)) ∧
    (∃ T : Tile, ∃ c : Nat, ∃ L : Nat, ∃ st : Nat, ∃ full : Bool, ∃ cy : Carry, ∃ B : Bp, ∃ w : StepW, st < 1024 ∧ (w.act = 7 ∨ w.act = 8) ∧ (
      let v := if w.act = 8 then opVal B w.opd else (cy.map (·.1)).getD false
      (
      let carried := decide (w.act = 7) && (cy.map (·.2)).getD false
      (
      let moved := full || carried || [w.opa, w.opb, w.opc, w.opd].any (opChg full B)
      moved = false)))) ∧
    (∃ T : Tile, ∃ c : Nat, ∃ L : Nat, ∃ st : Nat, ∃ full : Bool, ∃ cy : Carry, ∃ B : Bp, ∃ w : StepW, st < 1024 ∧ (w.act = 7 ∨ w.act = 8) ∧ (
      let v := if w.act = 8 then opVal B w.opd else (cy.map (·.1)).getD false
      (
      let carried := decide (w.act = 7) && (cy.map (·.2)).getD false
      (
      let moved := full || carried || [w.opa, w.opb, w.opc, w.opd].any (opChg full B)
      moved = true)))) ∧
    (∃ T : Tile, ∃ c : Nat, ∃ L : Nat, ∃ st : Nat, ∃ full : Bool, ∃ cy : Carry, ∃ B : Bp, ∃ w : StepW, st < 1024 ∧ (w.act = 7 ∨ w.act = 8) ∧ (
      let v := if w.act = 8 then opVal B w.opd else (cy.map (·.1)).getD false
      (
      let carried := decide (w.act = 7) && (cy.map (·.2)).getD false
      (
      let moved := full || carried || [w.opa, w.opb, w.opc, w.opd].any (opChg full B)
      moved = true ∧ ∃ j, j ≠ st)))) ∧
    (∃ full : Bool, ∃ C : Cluster, ∃ st : Nat, ∃ b : Nat, ∃ w : StepW, ∃ ws : StepWords, st < 1024 ∧ (b, w) ∈ ws ∧ ws.Pairwise (fun x y => x.1 ≠ y.1) ∧ (
      let B := bpOf C b
      (imports w.act = false ∨ w.sel = 0xFF))) ∧
    (∃ full : Bool, ∃ C : Cluster, ∃ st : Nat, ∃ b : Nat, ∃ w : StepW, ∃ ws : StepWords, st < 1024 ∧ (b, w) ∈ ws ∧ ws.Pairwise (fun x y => x.1 ≠ y.1) ∧ (
      let B := bpOf C b
      imports w.act = true ∧ w.sel < 208 ∧ ∃ j, j ≠ st)) :=
  ⟨⟨Tile.reset, 0, 16, 0, false, none, Bp.reset, stepW 0, by decide +kernel⟩,
   ⟨Tile.reset, 0, 16, 0, true, none, Bp.reset, stepW 0, by decide +kernel⟩,
   ⟨Tile.reset, 0, 16, 0, true, none, Bp.reset, stepW 0, by decide +kernel⟩,
   ⟨Tile.reset, 0, 16, 0, true, none, Bp.reset, stepW 0, by decide +kernel, by decide +kernel, by decide +kernel, 1023, by decide +kernel⟩,
   ⟨Tile.reset, 0, 16, 1023, true, some (true, false), Bp.reset, { stepW 0 with act := 7 }, by decide +kernel, by decide +kernel, true, false, by decide +kernel⟩,
   ⟨Tile.reset, 0, 16, 1023, false, none, { Bp.reset with sta := 1 }, { stepW 0 with act := 8, opd := 0x800 }, by decide +kernel⟩,
   ⟨Tile.reset, 0, 16, 1023, false, some (true, false), { Bp.reset with sta := 1 }, { stepW 0 with act := 7, tt := 0x1234 }, by decide +kernel⟩,
   ⟨Tile.reset, 0, 16, 1023, false, some (true, true), Bp.reset, { stepW 0 with act := 7, tt := 0x1234 }, by decide +kernel⟩,
   ⟨Tile.reset, 0, 16, 1023, false, none, { Bp.reset with sta := 1, staChg := 1 }, { stepW 0 with act := 8, opd := 0x800, tt := 0x1234 }, by decide +kernel, by decide +kernel, by decide +kernel, 1022, by decide +kernel⟩,
   ⟨false, Cluster.reset, 0, 0, stepW 0, [(0, stepW 0)], by decide +kernel⟩,
   ⟨true, { Cluster.reset with window := 1 }, 5, 3, { stepW 0 with act := 1, sel := 128 }, [(3, { stepW 0 with act := 1, sel := 128 })], by decide +kernel, by decide +kernel, by decide +kernel, by decide +kernel, by decide +kernel, 4, by decide +kernel⟩⟩

theorem witness_BarrierCommits :
    (∃ s : State, ∃ env : PinEnv, cycleOpen s.dev = true ∧ s.dev.clk.frozen = false ∧ allDone s.dev = true ∧ markersIn s.dev = true ∧ replayLeft (flushReplay (drainMesh s.dev)) = false ∧ badCommits (countCommitFixes (flushReplay (drainMesh s.dev))) = []) ∧
    (∃ s : State, ∃ env : PinEnv, cycleOpen s.dev = true ∧ s.dev.clk.frozen = false ∧ allDone s.dev = true ∧ markersIn s.dev = true ∧ (
      let l := badCommits (countCommitFixes (flushReplay (drainMesh s.dev)))
      replayLeft (flushReplay (drainMesh s.dev)) = false ∧ l ≠ [])) ∧
    (∃ s : State, ∃ env : PinEnv, cycleOpen s.dev = true ∧ s.dev.clk.frozen = false ∧ allDone s.dev = true ∧ markersIn s.dev = true ∧ replayLeft (flushReplay (drainMesh s.dev)) = true) ∧
    (∃ s : State, ∃ env : PinEnv, (cycleOpen s.dev = false ∨ s.dev.clk.frozen = true ∨ allDone s.dev = false ∨ markersIn s.dev = false)) :=
  ⟨⟨on (tile { badTile with stores := [(storeKey kCOMMIT 0, [(0, (commitEncode 0xFFF_FFF).setWidth 128), (63 * 64 + 63, (commitEncode 0xFFF_FFF).setWidth 128 <<< 96)])] } (up .running)), PinEnv.none, by decide +kernel⟩,
   ⟨on (tile badTile (up .running)), PinEnv.none, by decide +kernel⟩,
   ⟨on { replayDev with tiles := [(0, { queue 2 Ctx.reset with placed := true, loaded := true, clusters := (List.range 16).map fun c => (c, { Cluster.reset with done := true }) })], trc.active := true, trc.enable := true, trc.waiting := [⟨0x20, 8, [0], 0⟩], trc.done := List.replicate 16 [] }, PinEnv.none, by decide +kernel⟩,
   ⟨on (up .idle), PinEnv.none, by decide +kernel⟩⟩

theorem witness_CommitSlot :
    (∃ L : Nat, ∃ B : Bp, ∃ k : Nat, ∃ j : Nat, ∃ en : Nat, ∃ src : Nat, ∃ fix : Bool, ∃ e : BitVec 32, ∃ sta : BitVec 256, ∃ fixes : List Nat, k < 256 ∧ usedCommit L e = some (en, src, fix)) ∧
    (∃ L : Nat, ∃ B : Bp, ∃ k : Nat, ∃ j : Nat, ∃ en : Nat, ∃ src : Nat, ∃ fix : Bool, ∃ e : BitVec 32, ∃ sta : BitVec 256, ∃ fixes : List Nat, k < 256 ∧ usedCommit L e = some (en, src, fix) ∧ j ≠ k) ∧
    (∃ s : State, ∃ env : PinEnv, cycleOpen s.dev = true ∧ s.dev.clk.frozen = false ∧ allDone s.dev = true ∧ markersIn s.dev = true ∧ (∀ r, (regionOf s.dev r).rejoin = false) ∧ (
      let d := countCommitFixes (flushReplay (drainMesh s.dev))
      replayLeft (flushReplay (drainMesh s.dev)) = false ∧ badCommits d = [])) :=
  ⟨⟨16, Bp.reset, 255, 0, 0xFFE, 0xFFF, false, commitEncode 0xFFEFFF, 0, [], by decide +kernel⟩,
   ⟨16, Bp.reset, 255, 0, 0xFFE, 0xFFF, false, commitEncode 0xFFEFFF, 0, [], by decide +kernel⟩,
   ⟨on (tile { badTile with stores := [(storeKey kCOMMIT 0, [(0, (commitEncode 0xFFF_FFF).setWidth 128), (63 * 64 + 63, (commitEncode 0xFFF_FFF).setWidth 128 <<< 96)])] } (up .running)), PinEnv.none, by decide +kernel, by decide +kernel, by decide +kernel, by decide +kernel, fun r => by rcases r with _ | r <;> rfl, by decide +kernel⟩⟩

theorem witness_UpdateArrives :
    (∃ s : State, ∃ p : Fin 528, ∃ c : Fin 16, ∃ i : Fin 64, ∃ key : Nat, ∃ w : W64, ∃ rest : List Flit, s.dev.exch.mesh = .upd (.port p c i) key w :: rest ∧ tileActive s.dev p = true ∧ wRf w = false ∧ (portOf (clusterOf (tileOf s.dev p) c) i).got = false ∧ wStep w ≤ inSc (inEntry (tileOf s.dev p) c i)) ∧
    (∃ s : State, ∃ n : Fin 256, ∃ key : Nat, ∃ w : W64, ∃ rest : List Flit, s.dev.exch.mesh = .upd (.pinValue n) key w :: rest) ∧
    (∃ s : State, ∃ n : Fin 256, ∃ key : Nat, ∃ w : W64, ∃ rest : List Flit, s.dev.exch.mesh = .upd (.pinEnable n) key w :: rest) ∧
    (∃ s : State, ∃ p : Fin 528, ∃ c : Fin 16, ∃ i : Fin 64, ∃ key : Nat, ∃ w : W64, ∃ rest : List Flit, s.dev.exch.mesh = .upd (.port p c i) key w :: rest ∧ tileActive s.dev p = true ∧ wRf w = true) ∧
    (∃ s : State, ∃ p : Fin 528, ∃ c : Fin 16, ∃ i : Fin 64, ∃ key : Nat, ∃ w : W64, ∃ rest : List Flit, s.dev.exch.mesh = .upd (.port p c i) key w :: rest ∧ tileActive s.dev p = false) ∧
    (∃ s : State, ∃ dest : UpdDest, s.dev.exch.mesh.findIdx? (isUpd dest) = none) :=
  ⟨⟨on (tile Tile.reset { up .running with exch.mesh := [.upd (.port 0 15 63) 7 0] }), 0, 15, 63, 7, 0, [], by decide +kernel⟩,
   ⟨on { up .running with exch.mesh := [.upd (.pinValue 255) 7 0] }, 255, 7, 0, [], by decide +kernel⟩,
   ⟨on { up .running with exch.mesh := [.upd (.pinEnable 255) 7 0] }, 255, 7, 0, [], by decide +kernel⟩,
   ⟨on (tile Tile.reset { up .running with exch.mesh := [.upd (.port 0 15 63) 7 (wUpdate false true true 0 0)] }), 0, 15, 63, 7, wUpdate false true true 0 0, [], by decide +kernel⟩,
   ⟨on { up .running with exch.mesh := [.upd (.port 527 15 63) 7 0] }, 527, 15, 63, 7, 0, [], by decide +kernel⟩,
   ⟨on (up .running), .pinValue 255, by decide +kernel⟩⟩

theorem witness_ExchangeFaults :
    (∃ s : State, ∃ p : Fin 528, ∃ c : Fin 16, ∃ i : Fin 64, ∃ key : Nat, ∃ w : W64, ∃ rest : List Flit, s.dev.exch.mesh = .upd (.port p c i) key w :: rest ∧ tileActive s.dev p = true ∧ wRf w = false ∧ (s.dev.run.st = .running ∨ s.dev.run.st = .releasing ∨ (s.dev.run.st = .stopping ∧ s.dev.run.draining = false)) ∧ (portOf (clusterOf (tileOf s.dev p) c) i).got = true) ∧
    (∃ s : State, ∃ p : Fin 528, ∃ c : Fin 16, ∃ i : Fin 64, ∃ key : Nat, ∃ w : W64, ∃ rest : List Flit, s.dev.exch.mesh = .upd (.port p c i) key w :: rest ∧ tileActive s.dev p = true ∧ wRf w = false ∧ (s.dev.run.st = .running ∨ s.dev.run.st = .releasing ∨ (s.dev.run.st = .stopping ∧ s.dev.run.draining = false)) ∧ (portOf (clusterOf (tileOf s.dev p) c) i).got = false ∧ inSc (inEntry (tileOf s.dev p) c i) < wStep w) :=
  ⟨⟨on (tile { Tile.reset with clusters := [(0, { Cluster.reset with ports := [(63, { InPort.reset with got := true })] })] } { up .running with exch.mesh := [.upd (.port 0 0 63) 7 0] }), 0, 0, 63, 7, 0, [], by decide +kernel⟩,
   ⟨on (tile Tile.reset { up .stopping with exch.mesh := [.upd (.port 0 0 63) 7 0x40_0000_0000] }), 0, 0, 63, 7, 0x40_0000_0000, [], by decide +kernel⟩⟩

theorem witness_MarkArrives :
    (∃ s : State, ∃ p : Fin 528, ∃ key : Nat, ∃ w : W64, ∃ rest : List Flit, s.dev.exch.mesh = .mark (.tile p) key w :: rest ∧ tileActive s.dev p = true) ∧
    (∃ s : State, ∃ b : Fin 8, ∃ key : Nat, ∃ w : W64, ∃ rest : List Flit, s.dev.exch.mesh = .mark (.bank b) key w :: rest) ∧
    (∃ s : State, ∃ dest : MarkDest, ∃ key : Nat, s.dev.exch.mesh.findIdx? (isMark dest key) = none) :=
  ⟨⟨on (tile Tile.reset { up .running with exch.mesh := [.mark (.tile 0) 8191 0] }), 0, 8191, 0, [], by decide +kernel⟩,
   ⟨on { up .running with exch.mesh := [.mark (.bank 7) 7 0] }, 7, 7, 0, [], by decide +kernel⟩,
   ⟨on (up .running), .bank 7, 7, by decide +kernel⟩⟩

theorem witness_LinkWordsAndMarkers :
    (∃ s : State, ∃ lane : Fin 1024, ∃ w : W64, ∃ rest : List W64, ∃ p : Nat, ∃ c : Nat, ∃ i : Nat, ∃ e : W64, exchWords s.dev lane = w :: rest ∧ admits s.dev w = true ∧ wKind w = 1 ∧ portsOfLch s.dev lane (fld w 15 0) = [(p, c, i, e)]) ∧
    (∃ s : State, ∃ lane : Fin 1024, ∃ w : W64, ∃ rest : List W64, exchWords s.dev lane = w :: rest ∧ admits s.dev w = true ∧ wKind w = 1 ∧ portsOfLch s.dev lane (fld w 15 0) = []) ∧
    (∃ s : State, ∃ lane : Fin 1024, ∃ w : W64, ∃ rest : List W64, exchWords s.dev lane = w :: rest ∧ admits s.dev w = true ∧ wKind w = 3) ∧
    (∃ s : State, ∃ lane : Fin 1024, ∃ w : W64, ∃ rest : List W64, exchWords s.dev lane = w :: rest ∧ admits s.dev w = true ∧ wKind w = 4 ∧ fld w 31 0 = curCycle s.dev % 2 ^ 32) ∧
    (∃ s : State, ∃ lane : Fin 1024, ∃ w : W64, ∃ rest : List W64, exchWords s.dev lane = w :: rest ∧ admits s.dev w = true ∧ wKind w = 4 ∧ fld w 31 0 ≠ curCycle s.dev % 2 ^ 32) ∧
    (∃ s : State, ∃ lane : Fin 1024, ∃ w : W64, ∃ rest : List W64, exchWords s.dev lane = w :: rest ∧ admits s.dev w = false) ∧
    (∃ s : State, cycleOpen s.dev = true ∧ allDone s.dev = true ∧ pinsResolved s.dev = true) ∧
    (∃ s : State, ∃ lane : Fin 1024, ∃ w : W64, ∃ rest : List W64, exchWords s.dev lane = w :: rest ∧ admits s.dev w = true ∧ wKind w = 1 ∧ portsOfLch s.dev lane (fld w 15 0) ≠ []) :=
  ⟨⟨on (link .up { Link.reset with rx := [0x1800_0000_0000_0005] } (tile { Tile.reset with stores := [(storeKey kBIND 0, [(32, 0xC000_0000_0000_0005)])] } (up .running))), 0, 0x1800_0000_0000_0005, [], 0, 0, 0, 0xC000_0000_0000_0005, by decide +kernel⟩,
   ⟨on (link .up { Link.reset with rx := [0x1800_0000_0000_0005] } (up .running)), 0, 0x1800_0000_0000_0005, [], by decide +kernel⟩,
   ⟨on (link .up { Link.reset with rx := [0x3800_0000_0000_0000] } (up .running)), 0, 0x3800_0000_0000_0000, [], by decide +kernel⟩,
   ⟨on (link .up { Link.reset with rx := [0x4800_0000_0000_0001] } (up .running)), 0, 0x4800_0000_0000_0001, [], by decide +kernel⟩,
   ⟨on (link .up { Link.reset with rx := [0x4800_0000_0000_0003] } (up .running)), 0, 0x4800_0000_0000_0003, [], by decide +kernel⟩,
   ⟨on (link .up { Link.reset with rx := [0x1800_0000_0000_0005] } (up .loaded)), 0, 0x1800_0000_0000_0005, [], by decide +kernel⟩,
   ⟨on (link .up Link.reset (up .running)), by decide +kernel⟩,
   ⟨on (link .up { Link.reset with rx := [0x1800_0000_0000_0005] } (tile { Tile.reset with stores := [(storeKey kBIND 0, [(32, 0xC000_0000_0000_0005)])] } (up .running))), 0, 0x1800_0000_0000_0005, [], by decide +kernel⟩⟩

theorem witness_QueueServes :
    (∃ s : State, ∃ p : Fin 528, ∃ q : Fin 512, ∃ e : QEnt, ∃ rest : List QEnt, 
      let g := ctxCfg (tileOf s.dev p) q
      serving s.dev = true ∧ (ctxOf (tileOf s.dev p) q).ents = e :: rest ∧ e.served = false ∧ e.failed = false ∧ (g.kind = 0 ∧ bankServes (bankOf (tileOf s.dev p) (wordBank g e.addr)) .fabric = true ∨ g.kind = 1 ∧ s.dev.clk.frozen = false) ∧ e.op = 0) ∧
    (∃ s : State, ∃ p : Fin 528, ∃ q : Fin 512, ∃ e : QEnt, ∃ rest : List QEnt, 
      let g := ctxCfg (tileOf s.dev p) q
      serving s.dev = true ∧ (ctxOf (tileOf s.dev p) q).ents = e :: rest ∧ e.served = false ∧ e.failed = false ∧ g.kind = 1 ∧ s.dev.clk.frozen = false ∧ e.op = 2) ∧
    (∃ s : State, ∃ p : Fin 528, ∃ q : Fin 512, ∃ e : QEnt, ∃ rest : List QEnt, 
      let g := ctxCfg (tileOf s.dev p) q
      serving s.dev = true ∧ (tileOf s.dev p).placed = true ∧ (ctxOf (tileOf s.dev p) q).ents = e :: rest ∧ e.served = false ∧ e.failed = false ∧ g.kind = 0 ∧ bankServes (bankOf (tileOf s.dev p) (wordBank g e.addr)) .fabric = true ∧ e.op = 2) ∧
    (∃ s : State, ∃ p : Fin 528, ∃ q : Fin 512, ∃ i : Nat, ∃ e : QEnt, 
      let g := ctxCfg (tileOf s.dev p) q
      
      let X := ctxOf (tileOf s.dev p) q
      serving s.dev = true ∧ s.dev.clk.frozen = false ∧ X.ents.findIdx? (fun e => !e.served) = some i ∧ X.ents[i]? = some e ∧ e.failed = false ∧ (g.kind = 0 ∧ bankServes (bankOf (tileOf s.dev p) (wordBank g e.addr)) .fabric = true ∨ g.kind = 1) ∧ e.op = 0) ∧
    (∃ s : State, ∃ p : Fin 528, ∃ q : Fin 512, ∃ i : Nat, ∃ e : QEnt, 
      let g := ctxCfg (tileOf s.dev p) q
      
      let X := ctxOf (tileOf s.dev p) q
      serving s.dev = true ∧ s.dev.clk.frozen = false ∧ X.ents.findIdx? (fun e => !e.served) = some i ∧ X.ents[i]? = some e ∧ e.failed = false ∧ (g.kind = 0 ∧ bankServes (bankOf (tileOf s.dev p) (wordBank g e.addr)) .fabric = true ∨ g.kind = 1) ∧ e.op ≠ 0) ∧
    (∃ s : State, ∃ p : Fin 528, ∃ q : Fin 512, ∃ i : Nat, ∃ e : QEnt, 
      let X := ctxOf (tileOf s.dev p) q
      serving s.dev = true ∧ s.dev.clk.frozen = false ∧ X.ents.findIdx? (fun e => !e.served) = some i ∧ X.ents[i]? = some e ∧ e.failed = true) ∧
    (∃ s : State, ∃ p : Fin 528, ∃ q : Fin 512, ∃ i : Nat, ∃ e : QEnt, 
      let g := ctxCfg (tileOf s.dev p) q
      
      let X := ctxOf (tileOf s.dev p) q
      serving s.dev = true ∧ s.dev.clk.frozen = false ∧ X.ents.findIdx? (fun e => !e.served) = some i ∧ X.ents[i]? = some e ∧ e.failed = false ∧ g.kind = 0 ∧ bankServes (bankOf (tileOf s.dev p) (wordBank g e.addr)) .fabric = false) ∧
    (∃ s : State, ∃ p : Fin 528, ∃ q : Fin 512, ∃ i : Nat, ∃ e : QEnt, 
      let g := ctxCfg (tileOf s.dev p) q
      
      let X := ctxOf (tileOf s.dev p) q
      serving s.dev = true ∧ s.dev.clk.frozen = false ∧ X.ents.findIdx? (fun e => !e.served) = some i ∧ X.ents[i]? = some e ∧ e.failed = false ∧ g.kind = 3) ∧
    (∃ s : State, ∃ p : Fin 528, ∃ q : Fin 512, ∃ i : Nat, ∃ e : QEnt, 
      let g := ctxCfg (tileOf s.dev p) q
      
      let X := ctxOf (tileOf s.dev p) q
      serving s.dev = true ∧ s.dev.clk.frozen = false ∧ X.ents.findIdx? (fun e => !e.served) = some i ∧ X.ents[i]? = some e ∧ e.failed = false ∧ g.kind = 4) ∧
    (∃ s : State, ∃ p : Fin 528, ∃ q : Fin 512, ∃ i : Nat, ∃ e : QEnt, ∃ v : W64, ∃ rest : List W64, 
      let g := ctxCfg (tileOf s.dev p) q
      
      let X := ctxOf (tileOf s.dev p) q
      serving s.dev = true ∧ s.dev.clk.frozen = false ∧ X.ents.findIdx? (fun e => !e.served) = some i ∧ X.ents[i]? = some e ∧ e.failed = false ∧ (g.kind = 2 ∨ g.kind = 5) ∧ X.items = v :: rest ∧ (g.kind = 2 → hasDone s.dev (g.base % 4096) = true)) ∧
    (∃ s : State, ∃ p : Fin 528, ∃ q : Fin 512, ∃ i : Nat, ∃ e : QEnt, ∃ v : W64, ∃ rest : List W64, 
      let g := ctxCfg (tileOf s.dev p) q
      
      let X := ctxOf (tileOf s.dev p) q
      serving s.dev = true ∧ s.dev.clk.frozen = false ∧ X.ents.findIdx? (fun e => !e.served) = some i ∧ X.ents[i]? = some e ∧ e.failed = false ∧ g.kind = 2 ∧ X.items = v :: rest ∧ hasDone s.dev (g.base % 4096) = false) ∧
    (∃ s : State, ∃ p : Fin 528, ∃ q : Fin 512, ∃ i : Nat, ∃ e : QEnt, 
      let g := ctxCfg (tileOf s.dev p) q
      
      let X := ctxOf (tileOf s.dev p) q
      serving s.dev = true ∧ s.dev.clk.frozen = false ∧ X.ents.findIdx? (fun e => !e.served) = some i ∧ X.ents[i]? = some e ∧ e.failed = false ∧ (g.kind = 2 ∨ g.kind = 5) ∧ X.items = [] ∧ inDrain s.dev = false) ∧
    (∃ s : State, ∃ p : Fin 528, ∃ q : Fin 512, ∃ e : QEnt, ∃ f : QEnt, ∃ rest : List QEnt, 
      let X := ctxOf (tileOf s.dev p) q
      serving s.dev = true ∧ s.dev.clk.frozen = false ∧ isTake (ctxCfg (tileOf s.dev p) q).kind = true ∧ X.items = [] ∧ X.ents = e :: f :: rest ∧ e.served = false ∧ e.failed = false ∧ f.served = false ∧ f.failed = true) ∧
    (∃ s : State, ∃ p : Fin 528, ∃ q : Fin 512, serving s.dev = true ∧ s.dev.clk.frozen = false ∧ readsHbm s.dev p q = true ∧ s.dev.run.st = .running) ∧
    (∃ s : State, ∃ p : Fin 528, ∃ q : Fin 512, ∃ err : Bool, (serving s.dev = false ∨ (ctxOf (tileOf s.dev p) q).ents.findIdx? (fun e => !e.served) = none)) :=
  ⟨⟨on (tile (queue 0 { Ctx.reset with ents := [ent 0] }) (up .running)), 0, 0, ent 0, [], by decide +kernel⟩,
   ⟨on (tile (queue 1 { Ctx.reset with ents := [ent 2] }) (up .running)), 0, 0, ent 2, [], by decide +kernel⟩,
   ⟨on (tile (queue 0 { Ctx.reset with ents := [ent 2] }) (up .running)), 0, 0, ent 2, [], by decide +kernel⟩,
   ⟨on (tile (queue 0 { Ctx.reset with ents := [{ ent 0 with served := true }, ent 0] }) (up .running)), 0, 0, 1, { ent 0 with served := false }, by decide +kernel⟩,
   ⟨on (tile (queue 1 { Ctx.reset with ents := [{ ent 0 with served := true }, ent 3] }) (up .running)), 0, 0, 1, ent 3, by decide +kernel⟩,
   ⟨on (tile (queue 1 { Ctx.reset with ents := [{ ent 3 with failed := true }] }) (up .running)), 0, 0, 0, { ent 3 with failed := true }, by decide +kernel⟩,
   ⟨on (tile { queue 0 { Ctx.reset with ents := [ent 3] } with banks := [(0, ⟨.fabric, .host, true, false⟩)] } (up .running)), 0, 0, 0, ent 3, by decide +kernel⟩,
   ⟨on (tile (queue 3 { Ctx.reset with ents := [ent 1] }) (up .running)), 0, 0, 0, ent 1, by decide +kernel⟩,
   ⟨on (tile (queue 4 { Ctx.reset with ents := [ent 2] }) (up .running)), 0, 0, 0, ent 2, by decide +kernel⟩,
   ⟨on (tile (queue 5 { Ctx.reset with ents := [ent 0], items := [9] }) (up .running)), 0, 0, 0, ent 0, 9, [], by decide +kernel⟩,
   ⟨on (tile (queue 2 { Ctx.reset with ents := [ent 0], items := [9], flows := [3] }) (up .running)), 0, 0, 0, ent 0, 9, [], by decide +kernel⟩,
   ⟨on (tile (queue 5 { Ctx.reset with ents := [ent 0] }) (up .running)), 0, 0, 0, ent 0, by decide +kernel⟩,
   ⟨on (tile (queue 5 { Ctx.reset with ents := [ent 0, { ent 3 with failed := true }] }) (up .stranded)), 0, 0, ent 0, { ent 3 with failed := true }, [], by decide +kernel⟩,
   ⟨on (tile (queue 1 { Ctx.reset with ents := [ent 3] }) (up .running)), 0, 0, by decide +kernel⟩,
   ⟨on (up .idle), 527, 511, true, by decide +kernel⟩⟩

theorem witness_ResponseAndHandover :
    (∃ s : State, ∃ p : Fin 528, ∃ q : Fin 512, ∃ e : QEnt, ∃ rest : List QEnt, (ctxOf (tileOf s.dev p) q).ents = e :: rest ∧ e.served = true ∧ responds e.op = true ∧ e.avail = false) ∧
    (∃ s : State, ∃ p : Fin 528, ∃ b : Fin 16, (tileOf s.dev p).loaded = true ∧ (bankOf (tileOf s.dev p) b).draining = true) ∧
    (∃ s : State, ∃ m : Master, ∃ p : Fin 528, ∃ b : Fin 16, ∃ v : W64, ∃ d : Dev, Passes m (aTile p (0x1180 + 8 * b)) s d ∧ bit v 11 = false ∧ (tileOf d p).loaded = true ∧ ((mappedBanks (tileOf d p)).contains b.val = false ∨ d.run.st = .loaded ∨ d.run.st = .stopped)) ∧
    (∃ s : State, ∃ m : Master, ∃ p : Fin 528, ∃ b : Fin 16, ∃ v : W64, ∃ d : Dev, Passes m (aTile p (0x1180 + 8 * b)) s d ∧ bit v 11 = false ∧ (tileOf d p).loaded = true ∧ (mappedBanks (tileOf d p)).contains b.val = true ∧ d.run.st ≠ .loaded ∧ d.run.st ≠ .stopped) ∧
    (∃ s : State, ∃ m : Master, ∃ p : Fin 528, ∃ b : Fin 16, ∃ v : W64, ∃ d : Dev, Passes m (aTile p (0x1180 + 8 * b)) s d ∧ bit v 11 = false ∧ (tileOf d p).loaded = false) :=
  ⟨⟨on (tile (queue 0 { Ctx.reset with ents := [{ ent 0 with served := true }] }) (up .running)), 0, 0, { ent 0 with served := true }, [], by decide +kernel⟩,
   ⟨on (tile { Tile.reset with banks := [(15, { Bank.reset with draining := true })] } (up .loaded)), 0, 15, by decide +kernel⟩,
   ⟨on (tile Tile.reset (up .loaded)), .seat .manager, 0, 15, 0x100, _, passes_mk (by decide +kernel), by decide +kernel⟩,
   ⟨on (tile (queue 0 Ctx.reset) (up .running)), .seat .manager, 0, 0, 0x100, _, passes_mk (by decide +kernel), by decide +kernel⟩,
   ⟨on (up .loaded), .seat .manager, 0, 15, 0x100, _, passes_mk (by decide +kernel), by decide +kernel⟩⟩

theorem witness_RegionTable :
    (∃ s : State, ∃ i : Fin 16, ∃ v : W64, ∃ d : Dev, Passes (.seat .manager) (aRun (0x600 + 16 * i)) s d ∧ (d.run.st = .idle ∨ d.run.st = .loaded ∨ d.run.st = .stopped) ∧ bit (tget 0 d.mem.regionSize i) 63 = false) ∧
    (∃ s : State, ∃ i : Fin 16, ∃ v : W64, ∃ d : Dev, Passes (.seat .manager) (aRun (0x600 + 16 * i + 8)) s d ∧ (d.run.st = .idle ∨ d.run.st = .loaded ∨ d.run.st = .stopped) ∧ bit (tget 0 d.mem.regionSize i) 63 = false ∧ bit v 63 = false) ∧
    (∃ s : State, ∃ i : Fin 16, ∃ v : W64, ∃ d : Dev, Passes (.seat .manager) (aRun (0x600 + 16 * i)) s d ∧ d.run.st ≠ .idle ∧ d.run.st ≠ .loaded ∧ d.run.st ≠ .stopped) ∧
    (∃ s : State, ∃ i : Fin 16, ∃ size : Bool, ∃ v : W64, ∃ x : Seat, Judged s ∧ x ≠ .manager) ∧
    (∃ s : State, ∃ i : Fin 16, ∃ v : W64, ∃ d : Dev, ∃ m : Master, m ≠ .seat .manager ∧ Passes m (aRun (0x600 + 16 * i)) s d) ∧
    (∃ s : State, ∃ i : Fin 16, ∃ size : Bool, ∃ v : W64, ∃ d : Dev, Passes (.seat .manager) (aRun (0x600 + 16 * i + 8 * b2n size)) s d ∧ (d.run.st = .idle ∨ d.run.st = .loaded ∨ d.run.st = .stopped)) :=
  ⟨⟨on (up .idle), 15, 0x20_0000, _, passes_mk (by decide +kernel), by decide +kernel⟩,
   ⟨on (up .stopped), 15, 0x20_0000, _, passes_mk (by decide +kernel), by decide +kernel⟩,
   ⟨on (up .running), 0, 0, _, passes_mk (by decide +kernel), by decide +kernel⟩,
   ⟨on (up .idle), 0, true, 0, .run, by decide +kernel⟩,
   ⟨on (up .idle), 0, 0, _, .core, by decide +kernel, passes_mk (by decide +kernel)⟩,
   ⟨on (hbm 1 0 0x20_0000 (up .idle)), 0, true, 0, _, passes_mk (by decide +kernel), by decide +kernel⟩⟩

theorem witness_HbmAccess :
    (∃ s : State, ∃ m : Master, ∃ a : Nat, ∃ d : Dev, a % 8 = 0 ∧ a < 0x30_0000_0000 ∧ Arrives m false a s d ∧ 4 ≤ d.clk.stage ∧ regionAt d a = none) ∧
    (∃ s : State, ∃ m : Master, ∃ a : Nat, ∃ v : W64, ∃ d : Dev, ∃ t : State, a % 8 = 0 ∧ a < 0x30_0000_0000 ∧ Arrives m true a s d ∧ 4 ≤ d.clk.stage ∧ regionAt d a = none ∧ exec (.snHbmAccess m a (.write v)) s = .next t ∧ ∃ x, x < a ∨ a + 8 ≤ x) ∧
    (∃ s : State, ∃ m : Master, ∃ a : Nat, ∃ base : Nat, ∃ size : Nat, ∃ v : W64, ∃ d : Dev, a % 8 = 0 ∧ a < 0x30_0000_0000 ∧ 4 ≤ d.clk.stage ∧ Arrives m false a s d ∧ regionAt d a = some (0, base, size)) ∧
    (∃ s : State, ∃ m : Master, ∃ a : Nat, ∃ base : Nat, ∃ size : Nat, ∃ v : W64, ∃ d : Dev, a % 8 = 0 ∧ a < 0x30_0000_0000 ∧ 4 ≤ d.clk.stage ∧ Arrives m true a s d ∧ regionAt d a = some (0, base, size) ∧ d.run.st = .running) ∧
    (∃ s : State, ∃ m : Master, ∃ a : Nat, ∃ base : Nat, ∃ size : Nat, ∃ v : W64, ∃ d : Dev, a % 8 = 0 ∧ a < 0x30_0000_0000 ∧ 4 ≤ d.clk.stage ∧ Arrives m true a s d ∧ regionAt d a = some (0, base, size) ∧ (d.run.st = .loaded ∨ d.run.st = .stopped)) ∧
    (∃ s : State, ∃ m : Master, ∃ a : Nat, ∃ base : Nat, ∃ size : Nat, ∃ v : W64, ∃ d : Dev, a % 8 = 0 ∧ a < 0x30_0000_0000 ∧ Arrives m true a s d ∧ 4 ≤ d.clk.stage ∧ regionAt d a = some (3, base, size) ∧ a - base < 0x10_0000) ∧
    (∃ s : State, ∃ m : Master, ∃ a : Nat, ∃ base : Nat, ∃ size : Nat, ∃ v : W64, ∃ d : Dev, a % 8 = 0 ∧ a < 0x30_0000_0000 ∧ Arrives m true a s d ∧ 4 ≤ d.clk.stage ∧ regionAt d a = some (3, base, size) ∧ 0x10_0000 ≤ a - base ∧ slotBusy d ((a - base - 0x10_0000) / 64) = false) ∧
    (∃ s : State, ∃ m : Master, ∃ a : Nat, ∃ d : Dev, Arrives m false a s d ∧ d.clk.stage < 4) :=
  ⟨⟨on (up .idle), .seat .manager, 0x2F_FFFF_FFF8, _, by decide +kernel, by decide +kernel, arrives_mk (by decide +kernel), by decide +kernel⟩,
   ⟨on (up .idle), .core, 0x2F_FFFF_FFF8, 5, _, _, by decide +kernel, by decide +kernel, arrives_mk (by decide +kernel), by decide +kernel, by decide +kernel, rfl, 0, by decide +kernel⟩,
   ⟨on (hbm 0 0 0x20_0000 (up .running)), .seat .manager, 8, 0, 0x20_0000, 5, _, by decide +kernel, by decide +kernel, by decide +kernel, arrives_mk (by decide +kernel), by decide +kernel⟩,
   ⟨on (hbm 0 0 0x20_0000 (up .running)), .seat .manager, 8, 0, 0x20_0000, 5, _, by decide +kernel, by decide +kernel, by decide +kernel, arrives_mk (by decide +kernel), by decide +kernel⟩,
   ⟨on (hbm 0 0 0x20_0000 (up .stopped)), .seat .manager, 8, 0, 0x20_0000, 5, _, by decide +kernel, by decide +kernel, by decide +kernel, arrives_mk (by decide +kernel), by decide +kernel⟩,
   ⟨on (hbm 3 0 0x20_0000 (up .running)), .seat .manager, 0xF_FFF8, 0, 0x20_0000, 5, _, by decide +kernel, by decide +kernel, arrives_mk (by decide +kernel), by decide +kernel⟩,
   ⟨on (hbm 3 0 0x20_0000 (up .running)), .seat .manager, 0x10_0000, 0, 0x20_0000, 5, _, by decide +kernel, by decide +kernel, arrives_mk (by decide +kernel), by decide +kernel⟩,
   ⟨on { up .idle with clk.stage := 3 }, .seat .manager, 0, _, arrives_mk (by decide +kernel), by decide +kernel⟩⟩

theorem witness_BankAccess :
    (∃ s : State, ∃ m : Master, ∃ p : Fin 528, ∃ off : Nat, ∃ d : Dev, 
      let B := bankOf (tileOf d p) (off / 0x4_0000 % 16)
      Arrives m false (aBank p off) s d ∧ off % 8 = 0 ∧ off < 0x40_0000 ∧ B.owner = masterOwner m ∧ B.draining = false ∧ awaitsLoad d p = false) ∧
    (∃ s : State, ∃ m : Master, ∃ p : Fin 528, ∃ off : Nat, ∃ v : W64, ∃ d : Dev, 
      let B := bankOf (tileOf d p) (off / 0x4_0000 % 16)
      Arrives m true (aBank p off) s d ∧ off % 8 = 0 ∧ off < 0x40_0000 ∧ B.owner = masterOwner m ∧ B.draining = false ∧ awaitsLoad d p = false ∧ (mappedBanks (tileOf d p)).contains (off / 0x4_0000 % 16) = false) ∧
    (∃ s : State, ∃ m : Master, ∃ p : Fin 528, ∃ off : Nat, ∃ v : W64, ∃ d : Dev, 
      let B := bankOf (tileOf d p) (off / 0x4_0000 % 16)
      Arrives m true (aBank p off) s d ∧ (B.owner ≠ masterOwner m ∨ B.draining = true)) ∧
    (∃ s : State, ∃ m : Master, ∃ p : Fin 528, ∃ off : Nat, ∃ v : W64, ∃ d : Dev, 
      let B := bankOf (tileOf d p) (off / 0x4_0000 % 16)
      Arrives m true (aBank p off) s d ∧ B.owner = masterOwner m ∧ B.draining = false ∧ (tileOf d p).loaded = false) ∧
    (∃ s : State, ∃ m : Master, ∃ p : Fin 528, ∃ off : Nat, ∃ v : W64, ∃ d : Dev, 
      let B := bankOf (tileOf d p) (off / 0x4_0000 % 16)
      Arrives m true (aBank p off) s d ∧ off % 8 = 0 ∧ off < 0x40_0000 ∧ B.owner = masterOwner m ∧ B.draining = false ∧ awaitsLoad d p = false ∧ (mappedBanks (tileOf d p)).contains (off / 0x4_0000 % 16) = true) ∧
    (∃ s : State, ∃ m : Master, ∃ p : Fin 528, ∃ off : Nat, ∃ d : Dev, 
      let B := bankOf (tileOf d p) (off / 0x4_0000 % 16)
      Arrives m false (aBank p off) s d ∧ (B.owner ≠ masterOwner m ∨ B.draining = true)) :=
  ⟨⟨on { up .idle with tiles := [(527, { Tile.reset with loaded := true })] }, .core, 527, 0x3F_FFF8, _, arrives_mk (by decide +kernel), by decide +kernel⟩,
   ⟨on { up .idle with tiles := [(527, { Tile.reset with loaded := true })] }, .core, 527, 0x3F_FFF8, 5, _, arrives_mk (by decide +kernel), by decide +kernel⟩,
   ⟨on (up .idle), .seat .manager, 527, 0x3F_FFF8, 5, _, arrives_mk (by decide +kernel), by decide +kernel⟩,
   ⟨on (up .idle), .core, 527, 0x3F_FFF8, 5, _, arrives_mk (by decide +kernel), by decide +kernel⟩,
   ⟨on { tile { queue 0 Ctx.reset with banks := [(0, ⟨.host, .host, false, false⟩)] } (up .stopped) with clk.stage := 5 }, .seat .manager, 0, 0, 5, _, arrives_mk (by decide +kernel), by decide +kernel⟩,
   ⟨on (tile (queue 0 Ctx.reset) (up .running)), .seat .manager, 0, 0, _, arrives_mk (by decide +kernel), by decide +kernel⟩⟩

theorem witness_HostStreams :
    (∃ s : State, ∃ x : Seat, ∃ p : Fin 528, ∃ q : Fin 512, ∃ e : QEnt, ∃ rest : List QEnt, ∃ d : Dev, 
      let g := ctxCfg (tileOf d p) q
      Arrives (.seat x) false (aTile p (0x7000 + 8 * q)) s d ∧ longOp d = false ∧ ctxReady d p = true ∧ g.kind = 4 ∧ g.valid = true ∧ (ctxOf (tileOf d p) q).ents = e :: rest ∧ e.item = true ∧ e.op = 2) ∧
    (∃ s : State, ∃ m : Master, ∃ p : Fin 528, ∃ q : Fin 512, ∃ v : W64, ∃ d : Dev, 
      let g := ctxCfg (tileOf d p) q
      Arrives m true (aTile p (0x7000 + 8 * q)) s d ∧ ctxReady d p = true ∧ g.kind = 5 ∧ g.valid = true ∧ (ctxOf (tileOf d p) q).openPkt = none ∧ occupancy 5 (ctxOf (tileOf d p) q) + 2 ≤ g.depth ∧ bit v 33 = false ∧ bit v 32 = true) ∧
    (∃ s : State, ∃ m : Master, ∃ p : Fin 528, ∃ q : Fin 512, ∃ v : W64, ∃ d : Dev, 
      let g := ctxCfg (tileOf d p) q
      Arrives m true (aTile p (0x7000 + 8 * q)) s d ∧ ctxReady d p = true ∧ g.kind = 5 ∧ g.valid = true ∧ (ctxOf (tileOf d p) q).openPkt = none ∧ g.depth < occupancy 5 (ctxOf (tileOf d p) q) + 2 ∧ bit v 33 = false) ∧
    (∃ s : State, ∃ m : Master, ∃ p : Fin 528, ∃ q : Fin 512, ∃ d : Dev, 
      let g := ctxCfg (tileOf d p) q
      
      let a := aTile p (0x7000 + 8 * q)
      Arrives m false a s d ∧ (longOp d = false ∨ ∀ x, m ≠ .seat x) ∧ ctxReady d p = true ∧ (g.kind ≠ 4 ∨ g.valid = false)) ∧
    (∃ s : State, ∃ m : Master, ∃ p : Fin 528, ∃ q : Fin 512, ∃ d : Dev, 
      let g := ctxCfg (tileOf d p) q
      
      let a := aTile p (0x7000 + 8 * q)
      Arrives m false a s d ∧ (longOp d = false ∨ ∀ x, m ≠ .seat x) ∧ ctxReady d p = true ∧ g.kind = 4 ∧ g.valid = true ∧ (ctxOf (tileOf d p) q).ents.findIdx? (·.item) = none) ∧
    (∃ s : State, ∃ m : Master, ∃ p : Fin 528, ∃ q : Fin 512, ∃ d : Dev, 
      let g := ctxCfg (tileOf d p) q
      
      let a := aTile p (0x7000 + 8 * q)
      Arrives m false a s d ∧ (longOp d = false ∨ ∀ x, m ≠ .seat x) ∧ ctxReady d p = true ∧ ∃ i, ∃ e, g.kind = 4 ∧ g.valid = true ∧ (ctxOf (tileOf d p) q).ents.findIdx? (·.item) = some i ∧ (ctxOf (tileOf d p) q).ents[i]? = some e) ∧
    (∃ s : State, ∃ x : Seat, ∃ p : Fin 528, ∃ q : Fin 512, ∃ d : Dev, 
      let a := aTile p (0x7000 + 8 * q)
      Arrives (.seat x) false a s d ∧ ctxReady d p = true ∧ longOp d = true) ∧
    (∃ s : State, ∃ m : Master, ∃ p : Fin 528, ∃ q : Fin 512, ∃ v : W64, ∃ d : Dev, 
      let g := ctxCfg (tileOf d p) q
      
      let X := ctxOf (tileOf d p) q
      
      let a := aTile p (0x7000 + 8 * q)
      Arrives m true a s d ∧ ctxReady d p = true ∧ (g.kind ≠ 5 ∨ g.valid = false)) ∧
    (∃ s : State, ∃ m : Master, ∃ p : Fin 528, ∃ q : Fin 512, ∃ v : W64, ∃ d : Dev, 
      let g := ctxCfg (tileOf d p) q
      
      let X := ctxOf (tileOf d p) q
      
      let a := aTile p (0x7000 + 8 * q)
      Arrives m true a s d ∧ ctxReady d p = true ∧ ∃ l, g.kind = 5 ∧ g.valid = true ∧ X.openPkt = some l ∧ bit v 33 = true) ∧
    (∃ s : State, ∃ m : Master, ∃ p : Fin 528, ∃ q : Fin 512, ∃ v : W64, ∃ d : Dev, 
      let g := ctxCfg (tileOf d p) q
      
      let X := ctxOf (tileOf d p) q
      
      let a := aTile p (0x7000 + 8 * q)
      
      let free := g.depth - occupancy 5 X
      Arrives m true a s d ∧ ctxReady d p = true ∧ ∃ l, g.kind = 5 ∧ g.valid = true ∧ X.openPkt = some l ∧ bit v 33 = false ∧ free = 0) ∧
    (∃ s : State, ∃ m : Master, ∃ p : Fin 528, ∃ q : Fin 512, ∃ v : W64, ∃ d : Dev, 
      let g := ctxCfg (tileOf d p) q
      
      let X := ctxOf (tileOf d p) q
      
      let a := aTile p (0x7000 + 8 * q)
      
      let free := g.depth - occupancy 5 X
      Arrives m true a s d ∧ ctxReady d p = true ∧ ∃ l, g.kind = 5 ∧ g.valid = true ∧ X.openPkt = some l ∧ bit v 33 = false ∧ free ≠ 0 ∧ bit v 32 = true) ∧
    (∃ s : State, ∃ m : Master, ∃ p : Fin 528, ∃ q : Fin 512, ∃ v : W64, ∃ d : Dev, 
      let g := ctxCfg (tileOf d p) q
      
      let X := ctxOf (tileOf d p) q
      
      let a := aTile p (0x7000 + 8 * q)
      
      let free := g.depth - occupancy 5 X
      Arrives m true a s d ∧ ctxReady d p = true ∧ ∃ l, g.kind = 5 ∧ g.valid = true ∧ X.openPkt = some l ∧ bit v 33 = false ∧ free ≠ 0 ∧ bit v 32 = false) ∧
    (∃ s : State, ∃ m : Master, ∃ p : Fin 528, ∃ q : Fin 512, ∃ v : W64, ∃ d : Dev, 
      let g := ctxCfg (tileOf d p) q
      
      let X := ctxOf (tileOf d p) q
      
      let a := aTile p (0x7000 + 8 * q)
      Arrives m true a s d ∧ ctxReady d p = true ∧ g.kind = 5 ∧ g.valid = true ∧ X.openPkt = none ∧ bit v 33 = true) ∧
    (∃ s : State, ∃ m : Master, ∃ p : Fin 528, ∃ q : Fin 512, ∃ v : W64, ∃ d : Dev, 
      let g := ctxCfg (tileOf d p) q
      
      let X := ctxOf (tileOf d p) q
      
      let a := aTile p (0x7000 + 8 * q)
      
      let free := g.depth - occupancy 5 X
      Arrives m true a s d ∧ ctxReady d p = true ∧ g.kind = 5 ∧ g.valid = true ∧ X.openPkt = none ∧ bit v 33 = false ∧ bit v 32 = false ∧ 2 ≤ free) :=
  ⟨⟨on (tile (queue 4 { Ctx.reset with ents := [{ ent 2 with item := true }] }) (up .running)), .manager, 0, 0, { ent 2 with item := true }, [], _, arrives_mk (by decide +kernel), by decide +kernel⟩,
   ⟨on (tile (queue 5 Ctx.reset) (up .running)), .seat .manager, 0, 0, 0x1_0000_0009, _, arrives_mk (by decide +kernel), by decide +kernel⟩,
   ⟨on (tile (queue 5 { Ctx.reset with items := [1, 2, 3] }) (up .running)), .seat .manager, 0, 0, 9, _, arrives_mk (by decide +kernel), by decide +kernel⟩,
   ⟨on (tile (queue 5 Ctx.reset) (up .running)), .seat .manager, 0, 0, _, arrives_mk (by decide +kernel), .inl (by decide +kernel), by decide +kernel⟩,
   ⟨on (tile (queue 4 Ctx.reset) (up .running)), .seat .manager, 0, 0, _, arrives_mk (by decide +kernel), .inl (by decide +kernel), by decide +kernel⟩,
   ⟨on (tile (queue 4 { Ctx.reset with ents := [ent 2, { ent 2 with item := true }] }) (up .running)), .core, 0, 0, _, arrives_mk (by decide +kernel), .inr (fun _ h => by cases h), by decide +kernel, 1, { ent 2 with item := true }, by decide +kernel⟩,
   ⟨on { tile (queue 4 Ctx.reset) (up .running) with host.longKind := 4 }, .run, 0, 0, _, arrives_mk (by decide +kernel), by decide +kernel⟩,
   ⟨on (tile (queue 4 Ctx.reset) (up .running)), .seat .manager, 0, 0, 9, _, arrives_mk (by decide +kernel), by decide +kernel⟩,
   ⟨on (tile (queue 5 { Ctx.reset with openPkt := some [7] }) (up .running)), .seat .manager, 0, 0, 0x2_0000_0000, _, arrives_mk (by decide +kernel), by decide +kernel, [7], by decide +kernel⟩,
   ⟨on (tile (queue 5 { Ctx.reset with openPkt := some [7, 8, 9] }) (up .running)), .seat .manager, 0, 0, 9, _, arrives_mk (by decide +kernel), by decide +kernel, [7, 8, 9], by decide +kernel⟩,
   ⟨on (tile (queue 5 { Ctx.reset with openPkt := some [7] }) (up .running)), .seat .manager, 0, 0, 0x1_0000_0009, _, arrives_mk (by decide +kernel), by decide +kernel, [7], by decide +kernel⟩,
   ⟨on (tile (queue 5 { Ctx.reset with openPkt := some [7] }) (up .running)), .seat .manager, 0, 0, 9, _, arrives_mk (by decide +kernel), by decide +kernel, [7], by decide +kernel⟩,
   ⟨on (tile (queue 5 Ctx.reset) (up .running)), .seat .manager, 0, 0, 0x2_0000_0000, _, arrives_mk (by decide +kernel), by decide +kernel⟩,
   ⟨on (tile (queue 5 Ctx.reset) (up .running)), .seat .manager, 0, 0, 9, _, arrives_mk (by decide +kernel), by decide +kernel⟩⟩

theorem witness_LoadBegins :
    (∃ s : State, ∃ x : Seat, ∃ c : Cmd, ∃ rest : List Cmd, Turn s x 0x0201 c rest ∧ s.dev.ld.phase = .none ∧ bit (c.par 1) 0 = false ∧ loadState s.dev.run.st = true ∧ jtagTest s.dev = false ∧ 4 ≤ s.dev.clk.stage) ∧
    (∃ s : State, ∃ x : Seat, ∃ c : Cmd, ∃ rest : List Cmd, Turn s x 0x0201 c rest ∧ c.relayed = false ∧ (seatOf s.dev.host x).discard = false ∧ s.dev.ld.phase = .none ∧ bit (c.par 1) 0 = false ∧ loadState s.dev.run.st = false) :=
  ⟨⟨turn 0x0201 [0] (up .idle), .manager, _, _, ⟨rfl, rfl, rfl, rfl, by decide +kernel⟩, by decide +kernel⟩,
   ⟨turn 0x0201 [0] (up .stranded), .manager, _, _, ⟨rfl, rfl, rfl, rfl, by decide +kernel⟩, by decide +kernel⟩⟩

theorem witness_StreamLoadBegins :
    (∃ s : State, ∃ x : Seat, ∃ c : Cmd, ∃ rest : List Cmd, Turn s x 0x0202 c rest ∧ s.dev.ld.phase = .none ∧ loadState s.dev.run.st = true ∧ jtagTest s.dev = false ∧ 4 ≤ s.dev.clk.stage ∧ s.dev.ld.ahead = []) :=
  ⟨turn 0x0202 [] (up .idle), .manager, _, _, ⟨rfl, rfl, rfl, rfl, by decide +kernel⟩, by decide +kernel⟩

theorem witness_IntakeWrite :
    (∃ s : State, ∃ x : Seat, ∃ port : Port, ∃ b : List Byte, s.dev.run.st ≠ .boot ∧ s.dev.clk.pw ≠ 4 ∧ nocOn s.dev.clk = true ∧ rightPort s.dev x port = true ∧ s.dev.host.longSeat = x ∧ s.dev.host.longKind = 1 ∧ s.dev.host.longCmd.isSome = true ∧ s.dev.ld.phase = .frames ∧ s.dev.ld.arrived + b.length ≤ s.dev.ld.hdr.len) ∧
    (∃ s : State, ∃ x : Seat, ∃ port : Port, ∃ b : List Byte, s.dev.run.st ≠ .boot ∧ s.dev.clk.pw ≠ 4 ∧ nocOn s.dev.clk = true ∧ rightPort s.dev x port = true ∧ s.dev.host.longSeat ≠ x) ∧
    (∃ s : State, ∃ x : Seat, ∃ port : Port, ∃ b : List Byte, 
      let h := (s.dev.ld.intake ++ b).take 256
      s.dev.run.st ≠ .boot ∧ s.dev.clk.pw ≠ 4 ∧ nocOn s.dev.clk = true ∧ rightPort s.dev x port = true ∧ s.dev.host.longSeat = x ∧ s.dev.host.longKind = 1 ∧ s.dev.host.longCmd.isSome = true ∧ s.dev.ld.phase = .header ∧ h.length < 256) ∧
    (∃ s : State, ∃ x : Seat, ∃ port : Port, ∃ b : List Byte, 
      let h := (s.dev.ld.intake ++ b).take 256
      s.dev.run.st ≠ .boot ∧ s.dev.clk.pw ≠ 4 ∧ nocOn s.dev.clk = true ∧ rightPort s.dev x port = true ∧ s.dev.host.longSeat = x ∧ s.dev.host.longKind = 1 ∧ s.dev.host.longCmd.isSome = true ∧ s.dev.ld.phase = .header ∧ h.length = 256) ∧
    (∃ s : State, ∃ x : Seat, ∃ port : Port, ∃ b : List Byte, s.dev.run.st ≠ .boot ∧ s.dev.clk.pw ≠ 4 ∧ nocOn s.dev.clk = true ∧ rightPort s.dev x port = true ∧ s.dev.host.longSeat = x ∧ s.dev.host.longKind = 1 ∧ s.dev.host.longCmd.isSome = true ∧ s.dev.ld.phase = .frames ∧ s.dev.ld.hdr.len < s.dev.ld.arrived + b.length) ∧
    (∃ s : State, ∃ x : Seat, ∃ port : Port, ∃ b : List Byte, s.dev.run.st ≠ .boot ∧ s.dev.clk.pw ≠ 4 ∧ nocOn s.dev.clk = true ∧ rightPort s.dev x port = true ∧ s.dev.host.longSeat = x ∧ (s.dev.host.longKind = 1 ∨ s.dev.host.longKind = 2) ∧ s.dev.host.longCmd = none ∧ (s.dev.ld.ahead ++ b).length < 256) ∧
    (∃ s : State, ∃ x : Seat, ∃ port : Port, ∃ b : List Byte, s.dev.run.st ≠ .boot ∧ s.dev.clk.pw ≠ 4 ∧ nocOn s.dev.clk = true ∧ rightPort s.dev x port = true ∧ s.dev.host.longSeat = x ∧ s.dev.host.longKind = 2 ∧ s.dev.host.longCmd.isSome = true ∧ s.dev.ld.strActive = true ∧ s.dev.ld.strBuf = [] ∧ b.length ≤ s.dev.ld.strSkip) :=
  ⟨⟨on { up .idle with host.longKind := 1, host.longCmd := some (cmd 0x0201 [0]), ld.phase := .frames, ld.hdr.frames := 1 }, .manager, .a, [0x5A], by decide +kernel⟩,
   ⟨on (up .idle), .run, .a, [0x5A], by decide +kernel⟩,
   ⟨on { up .idle with host.longKind := 1, host.longCmd := some (cmd 0x0201 [0]), ld.phase := .header }, .manager, .a, [0x5A], by decide +kernel⟩,
   ⟨on { up .idle with host.longKind := 1, host.longCmd := some (cmd 0x0201 [0]), ld.phase := .header, ld.intake := goodHeader, ld.arrived := 256 }, .manager, .a, [0x5A], by decide +kernel⟩,
   ⟨on { up .idle with host.longKind := 1, host.longCmd := some (cmd 0x0201 [0]), ld.phase := .frames, ld.arrived := 256 }, .manager, .a, [0x5A], by decide +kernel⟩,
   ⟨on { up .idle with host.longKind := 1 }, .manager, .a, [0x5A], by decide +kernel⟩,
   ⟨on { up .idle with host.longKind := 2, host.longCmd := some (cmd 0x0202 []), ld.strActive := true, ld.strSkip := 5 }, .manager, .a, [0x5A], by decide +kernel⟩⟩

theorem witness_HeaderJudged :
    (∃ s : State, ∃ code : Nat, ∃ off : Nat, s.dev.ld.phase = .header ∧ 256 ≤ s.dev.ld.intake.length ∧ s.dev.ld.isStream = false ∧ headerCheck s.dev (s.dev.ld.intake.take 256) = some (code, off)) ∧
    (∃ s : State, s.dev.ld.phase = .header ∧ 256 ≤ s.dev.ld.intake.length ∧ headerCheck s.dev (s.dev.ld.intake.take 256) = none ∧ (parseHeader (s.dev.ld.intake.take 256)).isPartial = false) ∧
    (∃ s : State, ∃ code : Nat, ∃ off : Nat, s.dev.ld.phase = .header ∧ 256 ≤ s.dev.ld.intake.length ∧ s.dev.ld.isStream = true ∧ headerCheck s.dev (s.dev.ld.intake.take 256) = some (code, off)) ∧
    (∃ s : State, s.dev.ld.phase = .header ∧ 256 ≤ s.dev.ld.intake.length ∧ headerCheck s.dev (s.dev.ld.intake.take 256) = none ∧ (parseHeader (s.dev.ld.intake.take 256)).isPartial = true) ∧
    (∃ s : State, (s.dev.ld.phase ≠ .header ∨ s.dev.ld.intake.length < 256)) :=
  ⟨⟨on { up .idle with ld.phase := .header, ld.intake := List.replicate 256 0 }, 0x0201, 0, by decide +kernel⟩,
   ⟨on { up .idle with ld.phase := .header, ld.intake := goodHeader }, by decide +kernel⟩,
   ⟨on { up .idle with ld.phase := .header, ld.isStream := true, ld.intake := List.replicate 256 0 }, 0x0201, 0, by decide +kernel⟩,
   ⟨on { up .running with ld.phase := .header, ld.intake := partialHeader, image.vtiles := 1, image.l := 16 }, by decide +kernel⟩,
   ⟨on (up .idle), by decide +kernel⟩⟩

theorem witness_FrameTaken :
    (∃ s : State, ∃ p : Nat, 
      let f := parseFrame (s.dev.ld.intake.take 4160)
      s.dev.ld.phase = .frames ∧ 4160 ≤ s.dev.ld.intake.length ∧ s.dev.ld.aborting = false ∧ s.dev.ld.frameSeq + 1 ≠ s.dev.ld.hdr.frames ∧ (
      let d := updLd (fun L => { L with
            intake := L.intake.drop 4160
            manifest := if L.hdr.signed then L.manifest ++ s.dev.ld.intake.take 4160 else [] }) s.dev
      frameCheck d f = none ∧ planTile? d f.vtile = some p)) ∧
    (∃ s : State, ∃ p : Nat, 
      let f := parseFrame (s.dev.ld.intake.take 4160)
      s.dev.ld.phase = .frames ∧ 4160 ≤ s.dev.ld.intake.length ∧ s.dev.ld.aborting = false ∧ s.dev.ld.frameSeq + 1 = s.dev.ld.hdr.frames ∧ (
      let d := updLd (fun L => { L with
            intake := L.intake.drop 4160
            manifest := if L.hdr.signed then L.manifest ++ s.dev.ld.intake.take 4160 else [] }) s.dev
      frameCheck d f = none ∧ planTile? d f.vtile = some p)) ∧
    (∃ s : State, ∃ code : Nat, ∃ detail : W64, s.dev.ld.phase = .frames ∧ 4160 ≤ s.dev.ld.intake.length ∧ (
      let d := updLd (fun L => { L with
            intake := L.intake.drop 4160
            manifest := if L.hdr.signed then L.manifest ++ s.dev.ld.intake.take 4160 else [] }) s.dev
      frameCheck d (parseFrame (s.dev.ld.intake.take 4160)) = some (code, detail))) ∧
    (∃ s : State, (s.dev.ld.phase ≠ .frames ∨ s.dev.ld.intake.length < 4160)) :=
  ⟨⟨on frameDev, 0, by decide +kernel, by decide +kernel, by decide +kernel, by decide +kernel, goodFrame_ok, by decide +kernel⟩,
   ⟨on lastDev, 0, by decide +kernel, by decide +kernel, by decide +kernel, by decide +kernel, lastFrame_ok, by decide +kernel⟩,
   ⟨on { frameDev with ld.intake := List.replicate 4160 0 }, 0x0220, detailWord 0 0 0 0 0 0 0 0 0, by decide +kernel⟩,
   ⟨on (up .idle), by decide +kernel⟩⟩

theorem witness_LoadCompletes :
    (∃ s : State, s.dev.ld.phase = .checks ∧ endCheck s.dev = none ∧ s.dev.ld.hdr.isPartial = false) ∧
    (∃ s : State, s.dev.ld.phase = .checks ∧ endCheck s.dev = none ∧ s.dev.ld.hdr.isPartial = true) ∧
    (∃ s : State, ∃ code : Nat, ∃ detail : W64, s.dev.ld.phase = .checks ∧ endCheck s.dev = some (code, detail)) ∧
    (∃ s : State, s.dev.ld.phase ≠ .checks) :=
  ⟨⟨on { up .loading with ld.phase := .checks }, by decide +kernel⟩,
   ⟨on { up .running with ld.phase := .checks, ld.hdr.isPartial := true }, by decide +kernel⟩,
   ⟨on { up .loading with ld.phase := .checks, ld.hdr.signed := true }, 0x0230, 0, by decide +kernel⟩,
   ⟨on (up .idle), by decide +kernel⟩⟩

theorem witness_LoadEnded :
    (∃ s : State, s.dev.ld.phase = .header ∧ s.dev.ld.isStream = false ∧ s.dev.ld.intake.length < 256) ∧
    (∃ s : State, ∃ x : Seat, ∃ port : Port, ∃ c : Cmd, s.dev.run.st ≠ .boot ∧ s.dev.clk.pw ≠ 4 ∧ rightPort s.dev x port = true ∧ s.dev.host.longSeat = x ∧ s.dev.host.longKind = 1 ∧ s.dev.host.longCmd = some c ∧ s.dev.ld.phase = .header ∧ s.dev.ld.isStream = false ∧ c.relayed = false ∧ (seatOf s.dev.host c.seat).discard = false) ∧
    (∃ s : State, ∃ x : Seat, ∃ port : Port, ∃ c : Cmd, s.dev.run.st ≠ .boot ∧ s.dev.clk.pw ≠ 4 ∧ rightPort s.dev x port = true ∧ s.dev.host.longSeat = x ∧ s.dev.host.longKind = 1 ∧ s.dev.host.longCmd = some c ∧ s.dev.ld.phase = .checks ∧ s.dev.ld.routing = true) ∧
    (∃ s : State, s.dev.ld.phase = .frames ∧ s.dev.ld.arrived < s.dev.ld.hdr.len) ∧
    (∃ s : State, s.dev.ld.phase = .checks) ∧
    (∃ s : State, s.dev.ld.phase = .none ∧ s.dev.ld.strActive = true ∧ (s.dev.ld.strKept = false ∨ s.dev.ld.strCut = true)) ∧
    (∃ s : State, s.dev.ld.phase = .none ∧ (s.dev.ld.strActive = false ∨ s.dev.ld.strKept = true ∧ s.dev.ld.strCut = false)) ∧
    (∃ s : State, ∃ x : Seat, ∃ port : Port, ∃ c : Cmd, s.dev.run.st ≠ .boot ∧ s.dev.clk.pw ≠ 4 ∧ rightPort s.dev x port = true ∧ s.dev.host.longSeat = x ∧ s.dev.host.longKind = 1 ∧ s.dev.host.longCmd = some c ∧ s.dev.ld.phase = .frames ∧ s.dev.ld.intake ≠ []) ∧
    (∃ s : State, ∃ x : Seat, ∃ port : Port, ∃ c : Cmd, s.dev.run.st = .rewinding ∧ s.dev.clk.pw ≠ 4 ∧ rightPort s.dev x port = true ∧ s.dev.host.longSeat = x ∧ s.dev.host.longKind = 4 ∧ s.dev.host.longCmd = some c ∧ c.relayed = false ∧ (seatOf s.dev.host c.seat).discard = false ∧ s.dev.trail.banksTaken = false) ∧
    (∃ s : State, ∃ x : Seat, ∃ port : Port, ∃ c : Cmd, s.dev.run.st = .rewinding ∧ s.dev.clk.pw ≠ 4 ∧ rightPort s.dev x port = true ∧ s.dev.host.longSeat = x ∧ s.dev.host.longKind = 4 ∧ s.dev.host.longCmd = some c ∧ c.relayed = false ∧ (seatOf s.dev.host c.seat).discard = false ∧ s.dev.trail.banksTaken = true) ∧
    (∃ s : State, ∃ x : Seat, ∃ port : Port, ∃ c : Cmd, s.dev.run.st ≠ .boot ∧ s.dev.clk.pw ≠ 4 ∧ rightPort s.dev x port = true ∧ s.dev.host.longSeat = x ∧ s.dev.host.longKind = 5 ∧ s.dev.host.longCmd = some c) ∧
    (∃ s : State, ∃ x : Seat, ∃ port : Port, s.dev.run.st ≠ .boot ∧ s.dev.clk.pw ≠ 4 ∧ rightPort s.dev x port = false) ∧
    (∃ s : State, ∃ x : Seat, ∃ port : Port, s.dev.run.st ≠ .boot ∧ s.dev.clk.pw ≠ 4 ∧ rightPort s.dev x port = true ∧ longOp s.dev = false) ∧
    (∃ s : State, ∃ x : Seat, ∃ port : Port, s.dev.run.st ≠ .boot ∧ s.dev.clk.pw ≠ 4 ∧ rightPort s.dev x port = true ∧ longOp s.dev = true ∧ s.dev.host.longSeat ≠ x) :=
  ⟨⟨on { up .idle with ld.phase := .header }, by decide +kernel⟩,
   ⟨on { up .idle with ld.phase := .header, host.longKind := 1, host.longCmd := some (cmd 0x0201 [0]) }, .manager, .a, _, by decide +kernel, by decide +kernel, by decide +kernel, by decide +kernel, by decide +kernel, rfl, by decide +kernel⟩,
   ⟨on { up .loading with ld.phase := .checks, ld.routing := true, host.longKind := 1, host.longCmd := some (cmd 0x0201 [0]) }, .manager, .a, _, by decide +kernel, by decide +kernel, by decide +kernel, by decide +kernel, by decide +kernel, rfl, by decide +kernel⟩,
   ⟨on { up .loading with ld.phase := .frames, ld.hdr.frames := 1 }, by decide +kernel⟩,
   ⟨on { up .loading with ld.phase := .checks }, by decide +kernel⟩,
   ⟨on { up .idle with ld.strActive := true, ld.strKept := true, ld.strCut := true }, by decide +kernel⟩,
   ⟨on (up .idle), by decide +kernel⟩,
   ⟨on { up .loading with ld.phase := .frames, ld.intake := [1], host.longKind := 1, host.longCmd := some (cmd 0x0201 [0]) }, .manager, .a, _, by decide +kernel, by decide +kernel, by decide +kernel, by decide +kernel, by decide +kernel, rfl, by decide +kernel⟩,
   ⟨on { up .rewinding with host.longKind := 4, host.longCmd := some (cmd 0x0401 [0]), trail.rewinding := true }, .manager, .a, _, by decide +kernel, by decide +kernel, by decide +kernel, by decide +kernel, by decide +kernel, rfl, by decide +kernel⟩,
   ⟨on { up .rewinding with host.longKind := 4, host.longCmd := some (cmd 0x0401 [0]), trail.banksTaken := true }, .manager, .a, _, by decide +kernel, by decide +kernel, by decide +kernel, by decide +kernel, by decide +kernel, rfl, by decide +kernel⟩,
   ⟨on { up .idle with host.longKind := 5, host.longCmd := some (cmd 0x0310 [0, 0, 0]) }, .manager, .a, _, by decide +kernel, by decide +kernel, by decide +kernel, by decide +kernel, by decide +kernel, rfl⟩,
   ⟨on (up .idle), .manager, .psp, by decide +kernel⟩,
   ⟨on (up .idle), .manager, .a, by decide +kernel⟩,
   ⟨on { up .idle with host.longKind := 5 }, .run, .a, by decide +kernel⟩⟩

theorem witness_Streams :
    (∃ s : State, cfgOn (linkCfg s.dev 0) = true ∧ cfgMode (linkCfg s.dev 0) = 1 ∧ cfgWidth (linkCfg s.dev 0) = 3 ∧ (linkOf s.dev 0).rx ≠ [] ∧ s.dev.host.longKind = 0) ∧
    (∃ s : State, 
      let b := bytesOfWords (linkOf s.dev 0).rx
      cfgOn (linkCfg s.dev 0) = true ∧ cfgMode (linkCfg s.dev 0) = 1 ∧ cfgWidth (linkCfg s.dev 0) = 3 ∧ (linkOf s.dev 0).rx ≠ [] ∧ s.dev.host.longKind ≠ 2 ∧ s.dev.ld.strActive = true ∧ s.dev.ld.strBuf = [] ∧ b.length ≤ s.dev.ld.strSkip) ∧
    (∃ s : State, cfgOn (linkCfg s.dev 0) = true ∧ cfgMode (linkCfg s.dev 0) = 1 ∧ cfgWidth (linkCfg s.dev 0) = 3 ∧ (linkOf s.dev 0).rx ≠ [] ∧ s.dev.host.longKind ≠ 2 ∧ s.dev.ld.strActive = true) ∧
    (∃ s : State, 
      let b := s.dev.ld.strBuf.take 16
      s.dev.ld.strActive = true ∧ s.dev.ld.strSkip = 0 ∧ 16 ≤ s.dev.ld.strBuf.length ∧ b.take 4 = [0x5A, 0x50, 0x45, 0x5A] ∧ leAt b 12 4 = crc32c (b.take 12) ∧ leAt b 4 4 = s.dev.ld.strImages) ∧
    (∃ s : State, (s.dev.ld.strActive = false ∨ s.dev.ld.strSkip ≠ 0 ∨ s.dev.ld.strBuf.length < 16)) ∧
    (∃ s : State, 
      let b := s.dev.ld.strBuf.take 16
      s.dev.ld.strActive = true ∧ s.dev.ld.strSkip = 0 ∧ 16 ≤ s.dev.ld.strBuf.length ∧ b.take 4 = [0x5A, 0x50, 0x45, 0x5A] ∧ (leAt b 12 4 ≠ crc32c (b.take 12) ∨ leAt b 4 4 ≠ s.dev.ld.strImages)) :=
  ⟨⟨on { up .idle with links := [(0, { Link.reset with cfg := 0xA630, rx := [1] })] }, by decide +kernel⟩,
   ⟨on { up .loading with host.longKind := 1, ld.strActive := true, ld.strSkip := 100, links := [(0, { Link.reset with cfg := 0xA630, rx := [1] })] }, by decide +kernel⟩,
   ⟨on { up .loading with host.longKind := 1, ld.strActive := true, links := [(0, { Link.reset with cfg := 0xA630, rx := [1] })] }, by decide +kernel⟩,
   ⟨on { up .idle with ld.strActive := true, ld.strImages := 1, ld.strBuf := terminator }, by decide +kernel⟩,
   ⟨on (up .idle), by decide +kernel⟩,
   ⟨on { up .idle with ld.strActive := true, ld.strBuf := terminator }, by decide +kernel⟩⟩

theorem witness_Release :
    (∃ s : State, ∃ env : PinEnv, s.dev.run.st = .releasing ∧ s.dev.run.baseWait = false ∧ s.dev.ld.stage = 0) ∧
    (∃ s : State, ∃ env : PinEnv, s.dev.run.st = .releasing ∧ s.dev.run.baseWait = false ∧ s.dev.ld.stage = 1) ∧
    (∃ s : State, ∃ env : PinEnv, s.dev.run.st = .releasing ∧ s.dev.run.baseWait = false ∧ 2 ≤ s.dev.ld.stage ∧ s.dev.run.reqs = 0) ∧
    (∃ s : State, ∃ env : PinEnv, s.dev.run.st = .releasing ∧ s.dev.run.baseWait = false ∧ 2 ≤ s.dev.ld.stage ∧ s.dev.run.reqs ≠ 0) :=
  ⟨⟨on (up .releasing), PinEnv.none, by decide +kernel⟩,
   ⟨on { up .releasing with ld.stage := 1 }, PinEnv.none, by decide +kernel⟩,
   ⟨on { up .releasing with ld.stage := 2 }, PinEnv.none, by decide +kernel⟩,
   ⟨on { up .releasing with ld.stage := 2, run.reqs := 1 }, PinEnv.none, by decide +kernel⟩⟩

theorem witness_MordantMoves :
    (∃ s : State, s.dev.run.st ≠ .boot ∧ nocOn s.dev.clk = true) ∧
    (∃ s : State, ∃ l1 : List FrameRec, ∃ l2 : List FrameRec, ∃ f : FrameRec, 
      let d := s.dev
      
      let p := d.mordant.tile
      
      let T := tileOf d p
      
      let r := tileRegion d.fuse p
      
      let lines (g : FrameRec) := (List.range (g.len / 16)).map fun j => lineOf T g.kind g.cluster (g.offset / 16 + j)
      
      let sum (g : FrameRec) := crc32c (((lines g).flatMap fun l => bytesOf 16 l.toNat) ++ List.replicate (4096 - g.len) 0)
      
      let clean (l : List FrameRec) := l.map fun g => { g with clean := d.run.committed }
      
      let bad := (lines f).any fun l => (scrubLine f.kind l).2.2
      
      let under := (d.run.st = .running ∧ held d = false) ∨ (d.run.st = .stopping ∧ d.run.draining = false) ∨ d.run.st = .releasing
      d.run.st ≠ .boot ∧ nocOn d.clk = true ∧ T.placed = true ∧ T.loaded = true ∧ T.frames = l1 ++ f :: l2 ∧ (∀ g ∈ l1 ++ l2, ((lines g).all fun l => (scrubLine g.kind l).2 = (0, false)) = true ∧ sum g = g.pcrc) ∧ (regionOf d r).st = .active ∧ ((lines f).all fun l => (scrubLine f.kind l).2.1 = 0) = true ∧ bad = true) ∧
    (∃ s : State, ∃ l1 : List FrameRec, ∃ l2 : List FrameRec, ∃ f : FrameRec, 
      let d := s.dev
      
      let p := d.mordant.tile
      
      let T := tileOf d p
      
      let r := tileRegion d.fuse p
      
      let lines (g : FrameRec) := (List.range (g.len / 16)).map fun j => lineOf T g.kind g.cluster (g.offset / 16 + j)
      
      let sum (g : FrameRec) := crc32c (((lines g).flatMap fun l => bytesOf 16 l.toNat) ++ List.replicate (4096 - g.len) 0)
      
      let clean (l : List FrameRec) := l.map fun g => { g with clean := d.run.committed }
      
      let bad := (lines f).any fun l => (scrubLine f.kind l).2.2
      
      let under := (d.run.st = .running ∧ held d = false) ∨ (d.run.st = .stopping ∧ d.run.draining = false) ∨ d.run.st = .releasing
      d.run.st ≠ .boot ∧ nocOn d.clk = true ∧ T.placed = true ∧ T.loaded = true ∧ T.frames = l1 ++ f :: l2 ∧ (∀ g ∈ l1 ++ l2, ((lines g).all fun l => (scrubLine g.kind l).2 = (0, false)) = true ∧ sum g = g.pcrc) ∧ (regionOf d r).st = .active ∧ ((lines f).all fun l => (scrubLine f.kind l).2.1 = 0) = true ∧ bad = false ∧ sum f ≠ f.pcrc) ∧
    (∃ s : State, ∃ l1 : List FrameRec, ∃ l2 : List FrameRec, ∃ f : FrameRec, 
      let d := s.dev
      
      let p := d.mordant.tile
      
      let T := tileOf d p
      
      let r := tileRegion d.fuse p
      
      let lines (g : FrameRec) := (List.range (g.len / 16)).map fun j => lineOf T g.kind g.cluster (g.offset / 16 + j)
      
      let sum (g : FrameRec) := crc32c (((lines g).flatMap fun l => bytesOf 16 l.toNat) ++ List.replicate (4096 - g.len) 0)
      
      let clean (l : List FrameRec) := l.map fun g => { g with clean := d.run.committed }
      
      let bad := (lines f).any fun l => (scrubLine f.kind l).2.2
      
      let under := (d.run.st = .running ∧ held d = false) ∨ (d.run.st = .stopping ∧ d.run.draining = false) ∨ d.run.st = .releasing
      d.run.st ≠ .boot ∧ nocOn d.clk = true ∧ T.placed = true ∧ T.loaded = true ∧ T.frames = l1 ++ f :: l2 ∧ (∀ g ∈ l1 ++ l2, ((lines g).all fun l => (scrubLine g.kind l).2 = (0, false)) = true ∧ sum g = g.pcrc) ∧ (regionOf d r).st = .active ∧ ((lines f).all fun l => (scrubLine f.kind l).2.1 = 0) = true ∧ bad = false ∧ sum f = f.pcrc) ∧
    (∃ s : State, ∃ die : Fin 4, ∃ p : Nat, ∃ c : Nat, ∃ a : Nat, ∃ part : Nat, ∃ x : Nat, 
      let key := storeKey kINSTR c
      
      let l := tget 0 (tget [] (tileOf s.dev p).stores key) a
      s.dev.run.st ≠ .boot ∧ nocOn s.dev.clk = true ∧ c < 17 ∧ (s.dev.mordant.rewrites.find? fun x => x.1 / 132 = die.val) = some (p, key, a, part) ∧ scrubWord 80 7 (l.toNat / 2 ^ 0 % 2 ^ 88) = some (x, true)) ∧
    (∃ s : State, ∃ die : Fin 4, ∃ p : Nat, ∃ c : Nat, ∃ a : Nat, ∃ j : Nat, ∃ x : Nat, 
      let key := storeKey kCOMMIT c
      
      let l := tget 0 (tget [] (tileOf s.dev p).stores key) a
      s.dev.run.st ≠ .boot ∧ nocOn s.dev.clk = true ∧ c < 17 ∧ j < 4 ∧ (s.dev.mordant.rewrites.find? fun x => x.1 / 132 = die.val) = some (p, key, a, j) ∧ scrubWord 24 5 (l.toNat / 2 ^ (32 * j) % 2 ^ 30) = some (x, true)) ∧
    (∃ s : State, ∃ die : Fin 4, (s.dev.mordant.rewrites.find? fun x => x.1 / 132 = die.val) = none) :=
  ⟨⟨on { up .running with mordant.tile := 527 }, by decide +kernel⟩,
   ⟨on (tile { Tile.reset with stores := [(storeKey kINSTR 0, [(0, 3)])], frames := [⟨1, 0, 0, 16, 0, 5⟩] } (up .running)), [], [], ⟨1, 0, 0, 16, 0, 5⟩, by decide +kernel⟩,
   ⟨storing mismatched, [passed], [passed], mismatched, by decide +kernel, by decide +kernel, by decide +kernel, by decide +kernel, rfl, by simp only [List.singleton_append, List.mem_cons, List.not_mem_nil, or_false, or_self]; rintro g rfl; exact ⟨rfl, congrArg crc32c rfl⟩, by decide +kernel, by decide +kernel, by decide +kernel, crc_ne _⟩,
   ⟨storing passed, [passed], [passed], passed, by decide +kernel, by decide +kernel, by decide +kernel, by decide +kernel, rfl, by simp only [List.singleton_append, List.mem_cons, List.not_mem_nil, or_false, or_self]; rintro g rfl; exact ⟨rfl, congrArg crc32c rfl⟩, by decide +kernel, by decide +kernel, by decide +kernel, congrArg crc32c rfl⟩,
   ⟨on (tile { Tile.reset with stores := [(storeKey kINSTR 0, [(0, 1)])] } { up .running with mordant.rewrites := [(0, storeKey kINSTR 0, 0, 0)] }), 0, 0, 0, 0, 0, 0, by decide +kernel⟩,
   ⟨on (tile { Tile.reset with stores := [(storeKey kCOMMIT 0, [(0, 1 <<< 96)])] } { up .running with mordant.rewrites := [(0, storeKey kCOMMIT 0, 0, 3)] }), 0, 0, 0, 0, 3, 0, by decide +kernel⟩,
   ⟨on (up .running), 3, by decide +kernel⟩⟩

theorem witness_RunEnable :
    (∃ s : State, ∃ m : Master, ∃ env : PinEnv, ∃ d : Dev, Passes m (aRun 0x100) s d ∧ ∃ item, ∃ code, ∃ det, (d.run.st = .loaded ∨ d.run.st = .stopped ∨ d.run.st = .stranded) ∧ firstRefusal (checkItems d) = some (item, code, det)) ∧
    (∃ s : State, ∃ m : Master, ∃ env : PinEnv, ∃ d : Dev, Passes m (aRun 0x100) s d ∧ d.run.st = .stopping) ∧
    (∃ s : State, ∃ m : Master, ∃ env : PinEnv, ∃ d : Dev, Passes m (aRun 0x100) s d ∧ d.run.st = .loaded ∧ firstRefusal (checkItems d) = none) ∧
    (∃ s : State, ∃ m : Master, ∃ env : PinEnv, ∃ d : Dev, Passes m (aRun 0x100) s d ∧ d.run.st = .stopped ∧ firstRefusal (checkItems d) = none ∧ baseDue d = false) ∧
    (∃ s : State, ∃ m : Master, ∃ env : PinEnv, ∃ d : Dev, Passes m (aRun 0x100) s d ∧ (d.run.st = .idle ∨ d.run.st = .loading ∨ d.run.st = .releasing ∨ d.run.st = .running ∨ d.run.st = .rewinding ∨ d.run.st = .faulted)) :=
  ⟨⟨on { up .loaded with run.haltLow := true }, .seat .manager, PinEnv.none, _, passes_mk (by decide +kernel), 3, 0x0309, 0, by decide +kernel⟩,
   ⟨on (up .stopping), .seat .manager, PinEnv.none, _, passes_mk (by decide +kernel), by decide +kernel⟩,
   ⟨on (up .loaded), .seat .manager, PinEnv.none, _, passes_mk (by decide +kernel), by decide +kernel⟩,
   ⟨on (up .stopped), .core, PinEnv.none, _, passes_mk (by decide +kernel), by decide +kernel⟩,
   ⟨on (up .faulted), .seat .run, PinEnv.none, _, passes_mk (by decide +kernel), by decide +kernel⟩⟩

theorem witness_RunCommandAndBase :
    (∃ s : State, ∃ x : Seat, ∃ env : PinEnv, ∃ c : Cmd, ∃ rest : List Cmd, Turn s x 0x0301 c rest ∧ c.relayed = false ∧ (seatOf s.dev.host x).discard = false ∧ s.dev.run.st = .loaded ∧ (
      let d := writeRunMode (bit (c.par 1) 0) (bit (c.par 1) 1)
            (writeStopAt (c.par 3) { taken c rest s.dev with run := { s.dev.run with count := fld (c.par 2) 47 0 } })
      firstRefusal (checkItems d) = none)) ∧
    (∃ s : State, ∃ env : PinEnv, s.dev.run.baseWait = true ∧ s.dev.run.st = .releasing) ∧
    (∃ s : State, ∃ x : Seat, ∃ env : PinEnv, ∃ c : Cmd, ∃ rest : List Cmd, ∃ item : Nat, ∃ code : Nat, ∃ detail : Nat, Turn s x 0x0301 c rest ∧ c.relayed = false ∧ (seatOf s.dev.host x).discard = false ∧ (s.dev.run.st = .loaded ∨ s.dev.run.st = .stopped) ∧ (
      let d := writeRunMode (bit (c.par 1) 0) (bit (c.par 1) 1)
            (writeStopAt (c.par 3) { taken c rest s.dev with run := { s.dev.run with count := fld (c.par 2) 47 0 } })
      firstRefusal (checkItems d) = some (item, code, detail))) ∧
    (∃ s : State, ∃ x : Seat, ∃ env : PinEnv, ∃ c : Cmd, ∃ rest : List Cmd, Turn s x 0x0301 c rest ∧ c.relayed = false ∧ (seatOf s.dev.host x).discard = false ∧ s.dev.run.st = .stopped ∧ (
      let d := writeRunMode (bit (c.par 1) 0) (bit (c.par 1) 1)
            (writeStopAt (c.par 3) { taken c rest s.dev with run := { s.dev.run with count := fld (c.par 2) 47 0 } })
      firstRefusal (checkItems d) = none)) ∧
    (∃ s : State, ∃ x : Seat, ∃ env : PinEnv, ∃ c : Cmd, ∃ rest : List Cmd, Turn s x 0x0301 c rest ∧ c.relayed = false ∧ (seatOf s.dev.host x).discard = false ∧ (s.dev.run.st = .idle ∨ s.dev.run.st = .running ∨ s.dev.run.st = .releasing ∨ s.dev.run.st = .faulted)) ∧
    (∃ s : State, ∃ x : Seat, ∃ env : PinEnv, ∃ c : Cmd, ∃ rest : List Cmd, Turn s x 0x0301 c rest ∧ c.relayed = false ∧ (seatOf s.dev.host x).discard = false ∧ s.dev.run.st = .stopping) ∧
    (∃ s : State, ∃ env : PinEnv, s.dev.run.baseWait = false) ∧
    (∃ s : State, ∃ env : PinEnv, s.dev.run.baseWait = true ∧ s.dev.run.st = .running) :=
  ⟨⟨turn 0x0301 [0, 5, 0] (up .loaded), .manager, PinEnv.none, _, _, ⟨rfl, rfl, rfl, rfl, by decide +kernel⟩, by decide +kernel⟩,
   ⟨on { up .releasing with run.baseWait := true }, PinEnv.none, by decide +kernel⟩,
   ⟨turn 0x0301 [0, 5, 0] { up .stopped with run.midCycle := true }, .manager, PinEnv.none, _, _, 4, 0x0301, 0, ⟨rfl, rfl, rfl, rfl, by decide +kernel⟩, by decide +kernel⟩,
   ⟨turn 0x0301 [0, 5, 0] (up .stopped), .manager, PinEnv.none, _, _, ⟨rfl, rfl, rfl, rfl, by decide +kernel⟩, by decide +kernel⟩,
   ⟨turn 0x0301 [0, 5, 0] (up .idle), .manager, PinEnv.none, _, _, ⟨rfl, rfl, rfl, rfl, by decide +kernel⟩, by decide +kernel⟩,
   ⟨turn 0x0301 [0, 5, 0] (up .stopping), .manager, PinEnv.none, _, _, ⟨rfl, rfl, rfl, rfl, by decide +kernel⟩, by decide +kernel⟩,
   ⟨on (up .running), PinEnv.none, by decide +kernel⟩,
   ⟨on { up .running with run.baseWait := true }, PinEnv.none, by decide +kernel⟩⟩

theorem witness_StopRequests :
    (∃ s : State, ∃ m : Master, ∃ d : Dev, Passes m (aRun 0x100) s d ∧ d.run.st = .running ∧ held d = false ∧ d.run.restart = false) ∧
    (∃ s : State, ∃ x : Seat, ∃ c : Cmd, ∃ rest : List Cmd, Turn s x 0x0302 c rest ∧ s.dev.run.st = .running ∧ held s.dev = false ∧ s.dev.run.restart = false) ∧
    (∃ s : State, ∃ ns : Nat, 20 ≤ ns ∧ s.dev.run.st = .running ∧ held s.dev = false ∧ s.dev.run.restart = false) ∧
    (∃ s : State, ∃ ns : Nat, ns < 5) :=
  ⟨⟨on (up .running), .seat .run, _, passes_mk (by decide +kernel), by decide +kernel⟩,
   ⟨turn 0x0302 [] (up .running), .manager, _, _, ⟨rfl, rfl, rfl, rfl, by decide +kernel⟩, by decide +kernel⟩,
   ⟨on (up .running), 20, by decide +kernel⟩,
   ⟨on (up .running), 4, by decide +kernel⟩⟩

theorem witness_ForcedStop :
    (∃ s : State, ∃ m : Master, ∃ d : Dev, Passes m (aRun 0x100) s d ∧ d.run.st = .running ∧ held d = false ∧ d.run.draining = false) ∧
    (∃ s : State, ∃ x : Seat, ∃ c : Cmd, ∃ rest : List Cmd, Turn s x 0x0303 c rest ∧ s.dev.run.st = .running ∧ held s.dev = false ∧ s.dev.run.draining = false) ∧
    (∃ s : State, ∃ x : Seat, ∃ c : Cmd, ∃ rest : List Cmd, Turn s x 0x0303 c rest ∧ s.dev.run.st = .loaded) :=
  ⟨⟨on (up .running), .seat .manager, _, passes_mk (by decide +kernel), by decide +kernel⟩,
   ⟨turn 0x0303 [] (up .running), .manager, _, _, ⟨rfl, rfl, rfl, rfl, by decide +kernel⟩, by decide +kernel⟩,
   ⟨turn 0x0303 [] (up .loaded), .manager, _, _, ⟨rfl, rfl, rfl, rfl, by decide +kernel⟩, by decide +kernel⟩⟩

theorem witness_StopCompletes :
    (∃ s : State, ∃ env : PinEnv, s.dev.run.st = .stopping ∧ s.dev.run.draining = true ∧ drained s.dev = true ∧ s.dev.run.restart = false) ∧
    (∃ s : State, ∃ m : Master, ∃ v : W64, ∃ d : Dev, Passes m (aRun 0x110) s d ∧ d.run.st ≠ .running ∧ d.run.st ≠ .stopping ∧ d.run.st ≠ .releasing) ∧
    (∃ s : State, ∃ m : Master, ∃ v : W64, ∃ d : Dev, Passes m (aRun 0x110) s d ∧ d.run.st = .running ∧ held d = false ∧ d.run.baseWait = false ∧ d.run.stopAtEn = true ∧ v.toNat ≤ d.run.committed + 1) ∧
    (∃ s : State, ∃ m : Master, ∃ v : W64, ∃ d : Dev, Passes m (aRun 0x110) s d ∧ d.run.st = .running ∧ d.run.baseWait = true ∧ d.run.committed < v.toNat) :=
  ⟨⟨on { up .stopping with run.draining := true }, PinEnv.none, by decide +kernel⟩,
   ⟨on (up .stopped), .seat .run, 0xFFFF_FFFF_FFFF_FFFF, _, passes_mk (by decide +kernel), by decide +kernel⟩,
   ⟨on { up .running with run.stopAtEn := true, run.committed := 4 }, .seat .run, 5, _, passes_mk (by decide +kernel), by decide +kernel⟩,
   ⟨on { up .running with run.baseWait := true, run.committed := 4, run.stopAtEn := true }, .seat .run, 5, _, passes_mk (by decide +kernel), by decide +kernel⟩⟩

theorem witness_WatchdogAndPace :
    (∃ s : State, s.dev.run.st = .running) ∧
    (∃ s : State, s.dev.run.st = .idle) ∧
    (∃ s : State, s.dev.run.st = .running ∧ held s.dev = false ∧ s.dev.run.wdogMs ≠ 0 ∧ s.dev.run.stall = false ∧ s.dev.run.wdogAction = false) ∧
    (∃ s : State, s.dev.run.st = .running ∧ s.dev.run.holdCap = true ∧ s.dev.run.holdTrail = false ∧ paceDue s.dev ≤ s.dev.run.capTicks) ∧
    (∃ s : State, s.dev.run.st = .running ∧ s.dev.run.paceTargetUse = 0 ∧ s.dev.run.paceCapUse = 0) ∧
    (∃ s : State, ∃ x : Seat, ∃ c : Cmd, ∃ rest : List Cmd, Turn s x 0x0901 c rest) ∧
    (∃ s : State, s.dev.run.st = .running ∧ 0 < paceAim s.dev.run.paceTargetUse s.dev.run.paceCapUse ∧ 100 * (s.dev.run.paceCommits * 1000) < 98 * paceAim s.dev.run.paceTargetUse s.dev.run.paceCapUse) ∧
    (∃ s : State, s.dev.run.st = .running ∧ held s.dev = false ∧ s.dev.run.wdogMs ≠ 0 ∧ s.dev.run.draining = false ∧ s.dev.run.wdogAction = true) ∧
    (∃ s : State, ((s.dev.run.st ≠ .running ∨ held s.dev = true) ∧ s.dev.run.st ≠ .stopping ∨ s.dev.run.wdogMs = 0 ∨ s.dev.run.stall = true ∧ s.dev.run.wdogAction = false)) :=
  ⟨⟨on (up .running), by decide +kernel⟩,
   ⟨on (up .idle), by decide +kernel⟩,
   ⟨on (up .running), by decide +kernel⟩,
   ⟨on { up .running with run.holdCap := true, run.holdTrail := false }, by decide +kernel⟩,
   ⟨on (up .running), by decide +kernel⟩,
   ⟨turn 0x0901 [5, 6] (up .running), .manager, _, _, ⟨rfl, rfl, rfl, rfl, by decide +kernel⟩⟩,
   ⟨on { up .running with run.paceTargetUse := 1, run.pacePower := true }, by decide +kernel⟩,
   ⟨on { up .running with run.wdogAction := true }, by decide +kernel⟩,
   ⟨on { up .running with run.wdogMs := 0 }, by decide +kernel⟩⟩

theorem witness_TrailRegisters :
    (∃ s : State, ∃ k : Ckpt, s.dev.trail.composing = [k] ∧ s.dev.pair.mirror = false ∧ s.dev.trail.reload = [] ∧ s.dev.trail.short = 0 ∧ s.dev.trail.rewinding = false) ∧
    (∃ s : State, ∃ x : Seat, ∃ v : W64, ∃ d : Dev, Passes (.seat x) (aTrail 0) s d ∧ (x = .manager ∨ x = .run) ∧ d.run.holdTrail = false) ∧
    (∃ s : State, ∃ x : Seat, ∃ v : W64, Judged s ∧ x ≠ .manager ∧ x ≠ .run) ∧
    (∃ s : State, s.dev.run.st = .running ∧ engineReads s.dev = true) ∧
    (∃ s : State, ∃ k : Ckpt, ∃ rest : List Ckpt, s.dev.trail.composing = k :: rest ∧ s.dev.trail.rewinding = false) ∧
    (∃ s : State, s.dev.trail.composing = []) :=
  ⟨⟨on { up .running with trail.composing := [⟨5, [], 0, [], []⟩] }, _, rfl, by decide +kernel⟩,
   ⟨on (up .running), .run, 0x11F, _, passes_mk (by decide +kernel), by decide +kernel⟩,
   ⟨on (up .running), .debug, 0x11F, by decide +kernel⟩,
   ⟨on { up .running with trail.composing := [⟨5, [], 0, [], []⟩] }, by decide +kernel⟩,
   ⟨on { up .running with trail.composing := [⟨5, [], 0, [], []⟩, ⟨6, [], 0, [], []⟩], trail.short := 1 }, _, _, rfl, by decide +kernel⟩,
   ⟨on (up .running), by decide +kernel⟩⟩

theorem witness_Rewind :
    (∃ s : State, ∃ x : Seat, ∃ c : Cmd, ∃ rest : List Cmd, Turn s x 0x0401 c rest ∧ s.dev.trail.reload = [] ∧ rewindCheck (c.par 1).toNat s.dev = 0) ∧
    (∃ s : State, ∃ x : Seat, ∃ c : Cmd, ∃ rest : List Cmd, Turn s x 0x0401 c rest ∧ c.relayed = false ∧ (seatOf s.dev.host x).discard = false ∧ s.dev.trail.reload = [] ∧ rewindCheck (c.par 1).toNat s.dev ≠ 0) ∧
    (∃ s : State, s.dev.run.st = .rewinding ∧ (s.dev.trail.ckpts.any fun k => decide (k.cycle ≤ s.dev.trail.target)) = true ∧ bktBusy s.dev = false ∧ traceOn 0x20 s.dev = false ∧ (∀ p ∈ s.dev.trc.waiting, p.src ≠ 0x20) ∧ (∀ x ∈ s.dev.bkt.done, x.reported = true)) ∧
    (∃ s : State, s.dev.run.st = .rewinding) ∧
    (∃ s : State, s.dev.run.st = .rewinding ∧ bktBlocked s.dev = true) :=
  ⟨⟨turn 0x0401 [0] (hbm 1 0 0x8000_0000 { up .stopped with trail.empty := false }), .manager, _, _, ⟨rfl, rfl, rfl, rfl, by decide +kernel⟩, by decide +kernel⟩,
   ⟨turn 0x0401 [0] (up .running), .manager, _, _, ⟨rfl, rfl, rfl, rfl, by decide +kernel⟩, by decide +kernel⟩,
   ⟨on { up .rewinding with trail.ckpts := [⟨0, [], 0, [], []⟩] }, by decide +kernel⟩,
   ⟨on (up .rewinding), by decide +kernel⟩,
   ⟨on (hbm 3 0 0x60_0000 { up .rewinding with sn.draining := true, sn.affect := [(0, 1)] }), by decide +kernel⟩⟩

theorem witness_CaptureSessions :
    (∃ s : State, ∃ x : Seat, ∃ d : Dev, Passes (.seat x) (aCapture 0) s d ∧ x ≠ .board ∧ (d.run.st = .loaded ∨ d.run.st = .stopped) ∧ armCheck d = 0) ∧
    (∃ s : State, ∃ x : Seat, ∃ c : Cmd, ∃ rest : List Cmd, Turn s x 0x0501 c rest ∧ c.relayed = false ∧ (seatOf s.dev.host x).discard = false ∧ (s.dev.run.st = .loaded ∨ s.dev.run.st = .stopped) ∧ armCheck s.dev = 0) ∧
    (∃ s : State, ∃ x : Seat, ∃ d : Dev, Passes (.seat x) (aCapture 0) s d ∧ x ≠ .board ∧ d.cap.armed = true ∧ d.cap.phase = .ring ∧ d.cap.heldWrites = []) ∧
    (∃ s : State, ∃ x : Seat, ∃ c : Cmd, ∃ rest : List Cmd, Turn s x 0x0502 c rest ∧ c.relayed = false ∧ (seatOf s.dev.host x).discard = false ∧ s.dev.cap.armed = true) ∧
    (∃ s : State, ∃ x : Seat, ∃ c : Cmd, ∃ rest : List Cmd, Turn s x 0x0502 c rest ∧ s.dev.cap.armed = false) ∧
    (∃ s : State, ∃ x : Seat, ∃ d : Dev, Passes (.seat x) (aCapture 0) s d ∧ x ≠ .board ∧ d.run.st = .running ∧ armCheck d = 0) ∧
    (∃ s : State, ∃ x : Seat, ∃ d : Dev, ∃ n : Nat, Passes (.seat x) (aCapture 0) s d ∧ x ≠ .board ∧ ((d.run.st = .loaded ∨ d.run.st = .stopped ∨ d.run.st = .running ∨ d.run.st = .stranded) ∧ armCheck d = n ∧ n ≠ 0 ∨ (d.run.st = .idle ∨ d.run.st = .loading ∨ d.run.st = .releasing ∨ d.run.st = .stopping ∨ d.run.st = .faulted) ∧ n = 4)) ∧
    (∃ s : State, ∃ x : Seat, ∃ d : Dev, Passes (.seat x) (aCapture 0) s d ∧ x ≠ .board ∧ d.cap.armed = true ∧ d.cap.phase = .post) ∧
    (∃ s : State, ∃ x : Seat, ∃ d : Dev, Passes (.seat x) (aCapture 0) s d ∧ x ≠ .board ∧ d.cap.armed = false) :=
  ⟨⟨on (hbm 2 0 0x4000_0000 { up .loaded with cap.hampersM1 := 0, image.l := 64 }), .debug, _, passes_mk (by decide +kernel), by decide +kernel⟩,
   ⟨turn 0x0501 [] (hbm 2 0 0x4000_0000 { up .stopped with cap.hampersM1 := 0, image.l := 64 }), .manager, _, _, ⟨rfl, rfl, rfl, rfl, by decide +kernel⟩, by decide +kernel⟩,
   ⟨on { up .running with cap.armed := true, cap.phase := .ring }, .run, _, passes_mk (by decide +kernel), by decide +kernel⟩,
   ⟨turn 0x0502 [] { up .running with cap.armed := true, cap.phase := .ring }, .manager, _, _, ⟨rfl, rfl, rfl, rfl, by decide +kernel⟩, by decide +kernel⟩,
   ⟨turn 0x0502 [] (up .running), .manager, _, _, ⟨rfl, rfl, rfl, rfl, by decide +kernel⟩, by decide +kernel⟩,
   ⟨on (hbm 2 0 0x4000_0000 { up .running with cap.hampersM1 := 0, image.l := 64 }), .debug, _, passes_mk (by decide +kernel), by decide +kernel⟩,
   ⟨on (up .running), .debug, _, 0x0501, passes_mk (by decide +kernel), by decide +kernel⟩,
   ⟨on { up .running with cap.armed := true, cap.phase := .post }, .run, _, passes_mk (by decide +kernel), by decide +kernel⟩,
   ⟨on (up .running), .run, _, passes_mk (by decide +kernel), by decide +kernel⟩⟩

theorem witness_CaptureRegisters :
    (∃ s : State, ∃ x : Seat, ∃ off : Nat, ∃ v : W64, ∃ d : Dev, Passes (.seat x) (aCapture off) s d ∧ x ≠ .board ∧ isCapConfig off = true ∧ d.cap.armed = false) ∧
    (∃ s : State, ∃ x : Seat, ∃ off : Nat, ∃ v : W64, ∃ d : Dev, Passes (.seat x) (aCapture off) s d ∧ x ≠ .board ∧ isCapConfig off = true ∧ d.cap.armed = true) ∧
    (∃ s : State, ∃ off : Nat, ∃ v : W64, Judged s ∧ isCapConfig off = true ∧ off < 0x1_0000) ∧
    (∃ s : State, ∃ a : Nat, ∃ w : BitVec 32, ∃ n : Nat, ∃ d : Dev, nocOn s.dev.clk = true ∧ s.dev.cap.heldWrites = [(a, w)] ∧ blockedTo s.dev (hbmDie a * 256) = false ∧ travel (capPacket a w s.dev) true (4 + hbmDie a) s.dev = (n, d)) ∧
    (∃ s : State, ∃ a : Nat, ∃ w : BitVec 32, ∃ l : List (Nat × BitVec 32), nocOn s.dev.clk = true ∧ s.dev.cap.heldWrites = (a, w) :: l ∧ blockedTo s.dev (hbmDie a * 256) = true) ∧
    (∃ s : State, nocOn s.dev.clk = true ∧ s.dev.sn.draining = false ∧ (∀ x ∈ s.dev.cap.heldWrites, travel (capPacket x.1 x.2 s.dev) true (4 + hbmDie x.1) s.dev = (0, s.dev))) ∧
    (∃ s : State, nocOn s.dev.clk = false) :=
  ⟨⟨on (up .idle), .debug, 0xBFF8, 1, _, passes_mk (by decide +kernel), by decide +kernel⟩,
   ⟨on { up .running with cap.armed := true }, .debug, 0x08, 1, _, passes_mk (by decide +kernel), by decide +kernel⟩,
   ⟨on { up .idle with host.board.prot := 0xFFF0_0000_0000_0000 }, 0x08, 1, by decide +kernel⟩,
   ⟨on { up .running with cap.heldWrites := [(0x1000, 7)] }, 0x1000, 7, _, _, by decide +kernel, by decide +kernel, by decide +kernel, eta_mk _⟩,
   ⟨on { up .running with cap.heldWrites := [(0x1000, 7)], sn.draining := true, sn.affect := [(0, 1)] }, 0x1000, 7, [], by decide +kernel⟩,
   ⟨on { up .running with cap.heldWrites := [(0x1000, 7)] }, by decide +kernel⟩,
   ⟨on { up .running with clk.frozen := true }, by decide +kernel⟩⟩

theorem witness_Submission :
    (∃ s : State, ∃ x : Seat, ∃ v : W64, ∃ d : Dev, Passes (.seat x) (aBasket 8) s d ∧ (x = .manager ∨ x = .run) ∧ fld v 47 32 = 0 ∧ bktBusy d = false ∧ submitState d = true ∧ (readSlot (fld v 23 0) d).1 = 0 ∧ slotCheck d (fld v 23 0) = 0) ∧
    (∃ s : State, ∃ x : Seat, ∃ v : W64, ∃ d : Dev, Passes (.seat x) (aBasket 8) s d ∧ (x = .manager ∨ x = .run) ∧ fld v 47 32 = 0 ∧ bktBusy d = false ∧ submitState d = true ∧ (readSlot (fld v 23 0) d).1 = 0 ∧ slotCheck d (fld v 23 0) ≠ 0) ∧
    (∃ s : State, ∃ x : Seat, ∃ c : Cmd, ∃ rest : List Cmd, Turn s x 0x0601 c rest ∧ c.relayed = false ∧ (seatOf s.dev.host x).discard = false ∧ fld (c.par 1) 47 32 = 0 ∧ submitState s.dev = true ∧ bktBusy s.dev = false ∧ (readSlot (fld (c.par 1) 23 0) s.dev).1 = 0 ∧ slotCheck s.dev (fld (c.par 1) 23 0) = 0) ∧
    (∃ s : State, ∃ x : Seat, ∃ v : W64, ∃ d : Dev, Passes (.seat x) (aBasket 8) s d ∧ (x = .manager ∨ x = .run)) ∧
    (∃ s : State, ∃ x : Seat, ∃ v : W64, ∃ d : Dev, Passes (.seat x) (aBasket 8) s d ∧ (x = .manager ∨ x = .run) ∧ BasketFree d ∧ submitState d = false) ∧
    (∃ s : State, ∃ x : Seat, ∃ c : Cmd, ∃ rest : List Cmd, Turn s x 0x0601 c rest ∧ c.relayed = false ∧ (seatOf s.dev.host x).discard = false ∧ fld (c.par 1) 47 32 = 0 ∧ submitState s.dev = true ∧ bktBusy s.dev = false ∧ (readSlot (fld (c.par 1) 23 0) s.dev).1 = 0 ∧ slotCheck s.dev (fld (c.par 1) 23 0) ≠ 0) ∧
    (∃ s : State, ∃ x : Seat, ∃ v : W64, ∃ d : Dev, Passes (.seat x) (aBasket 8) s d ∧ (x = .manager ∨ x = .run) ∧ bktBlocked d = true) ∧
    (∃ s : State, ∃ x : Seat, ∃ c : Cmd, ∃ rest : List Cmd, Turn s x 0x0601 c rest ∧ bktBlocked s.dev = true) :=
  ⟨⟨on (tile (queue 2 Ctx.reset) (hbm 3 0 0x20_0000 { up .running with mem.hbm := [(0x10_0007, 0x80)] })), .run, 0, _, passes_mk (by decide +kernel), by decide +kernel⟩,
   ⟨on (up .running), .run, 0, _, passes_mk (by decide +kernel), by decide +kernel⟩,
   ⟨turn 0x0601 [0] (tile (queue 2 Ctx.reset) (hbm 3 0 0x20_0000 { up .running with mem.hbm := [(0x10_0007, 0x80)] })), .manager, _, _, ⟨rfl, rfl, rfl, rfl, by decide +kernel⟩, by decide +kernel⟩,
   ⟨on (up .running), .run, 0x3_0000_0000, _, passes_mk (by decide +kernel), by decide +kernel⟩,
   ⟨on (up .idle), .run, 0x3_0000_0000, _, passes_mk (by decide +kernel), by decide +kernel⟩,
   ⟨turn 0x0601 [0] (up .running), .manager, _, _, ⟨rfl, rfl, rfl, rfl, by decide +kernel⟩, by decide +kernel⟩,
   ⟨on (hbm 3 0 0x20_0000 { up .running with sn.draining := true, sn.affect := [(0, 1)] }), .run, 0, _, passes_mk (by decide +kernel), by decide +kernel⟩,
   ⟨turn 0x0601 [0] (hbm 3 0 0x20_0000 { up .running with sn.draining := true, sn.affect := [(0, 1)] }), .manager, _, _, ⟨rfl, rfl, rfl, rfl, by decide +kernel⟩, by decide +kernel⟩⟩

theorem witness_Delivery :
    (∃ s : State, ∃ port : Fin 4096, ∃ p : Nat, ∃ q : Nat, portCtx? s.dev 2 port = some (p, q) ∧ s.dev.bkt.delivOpen = true ∧ tileActive s.dev p = true ∧ (ctxOf (tileOf s.dev p) q).items.length < (ctxCfg (tileOf s.dev p) q).depth ∧ s.dev.bkt.jobs = [] ∧ inReplay s.dev = false ∧ ∃ x, outstanding s.dev port ≤ windowM1 s.dev port ∧ nextReady? s.dev port = some x ∧ bktBlocked s.dev = false) ∧
    (∃ s : State, ∃ port : Fin 4096, ∃ p : Nat, ∃ q : Nat, portCtx? s.dev 2 port = some (p, q) ∧ s.dev.bkt.delivOpen = true ∧ tileActive s.dev p = true ∧ (ctxOf (tileOf s.dev p) q).items.length < (ctxCfg (tileOf s.dev p) q).depth ∧ s.dev.bkt.jobs = [] ∧ inReplay s.dev = false ∧ windowM1 s.dev port < outstanding s.dev port) ∧
    (∃ s : State, ∃ port : Fin 4096, ∃ p : Nat, ∃ q : Nat, portCtx? s.dev 2 port = some (p, q) ∧ s.dev.bkt.delivOpen = true ∧ tileActive s.dev p = true ∧ (ctxOf (tileOf s.dev p) q).items.length < (ctxCfg (tileOf s.dev p) q).depth ∧ s.dev.bkt.jobs = [] ∧ inReplay s.dev = false ∧ outstanding s.dev port ≤ windowM1 s.dev port ∧ nextReady? s.dev port = none) ∧
    (∃ s : State, ∃ port : Fin 4096, ∃ p : Nat, ∃ q : Nat, ∃ flow : Nat, ∃ item : W64, portCtx? s.dev 2 port = some (p, q) ∧ s.dev.bkt.delivOpen = true ∧ tileActive s.dev p = true ∧ (ctxOf (tileOf s.dev p) q).items.length < (ctxCfg (tileOf s.dev p) q).depth ∧ inReplay s.dev = true ∧ logged? s.dev p q = some (flow, item) ∧ completionsDue s.dev = false ∧ s.dev.bkt.jobs = [] ∧ bktBlocked s.dev = false) ∧
    (∃ s : State, ∃ port : Fin 4096, ∃ p : Nat, ∃ q : Nat, ∃ flow : Nat, ∃ item : W64, portCtx? s.dev 2 port = some (p, q) ∧ s.dev.bkt.delivOpen = true ∧ tileActive s.dev p = true ∧ (ctxOf (tileOf s.dev p) q).items.length < (ctxCfg (tileOf s.dev p) q).depth ∧ inReplay s.dev = true ∧ logged? s.dev p q = some (flow, item) ∧ completionsDue s.dev = false ∧ s.dev.bkt.jobs = [] ∧ bktBlocked s.dev = true) ∧
    (∃ s : State, ∃ port : Fin 4096, ∃ p : Nat, ∃ q : Nat, s.dev.bkt.jobs = [] ∧ portCtx? s.dev 2 port = some (p, q) ∧ inReplay s.dev = true ∧ (logged? s.dev p q = none ∨ completionsDue s.dev = true)) ∧
    (∃ s : State, ∃ port : Fin 4096, s.dev.bkt.jobs = [] ∧ (s.dev.bkt.delivOpen = false ∨ portCtx? s.dev 2 port = none)) :=
  ⟨⟨on (tile (queue 2 Ctx.reset) { up .running with bkt.delivOpen := true, bkt.descs := [readyDesc], bkt.ready := [3] }), 0, 0, 0, by decide +kernel, by decide +kernel, by decide +kernel, by decide +kernel, by decide +kernel, by decide +kernel, readyDesc, by decide +kernel⟩,
   ⟨on (tile (queue 2 Ctx.reset) { up .running with bkt.delivOpen := true, bkt.window := [(0, 0)], bkt.descs := [{ readyDesc with st := 3 }] }), 0, 0, 0, by decide +kernel⟩,
   ⟨on (tile (queue 2 Ctx.reset) { up .running with bkt.delivOpen := true }), 0, 0, 0, by decide +kernel⟩,
   ⟨on replayDev, 0, 0, 0, 3, 5, by decide +kernel⟩,
   ⟨on { replayDev with trc.active := true, trc.enable := true, trc.waiting := [⟨0x20, 8, [0], 0⟩], trc.done := List.replicate 16 [] }, 0, 0, 0, 3, 5, by decide +kernel⟩,
   ⟨on { replayDev with trail.logRecs := [] }, 0, 0, 0, by decide +kernel⟩,
   ⟨on (up .running), 4095, by decide +kernel⟩⟩

theorem witness_Completions :
    (∃ s : State, ∃ port : Nat, ∃ cycle : Nat, ∃ v : W64, s.dev.bkt.staged = [(port, cycle, v)] ∧ cycle ≤ s.dev.run.committed ∧ bktBusy s.dev = false ∧ oldestDelivered? s.dev port = none) ∧
    (∃ s : State, ∃ port : Nat, ∃ cycle : Nat, ∃ v : W64, s.dev.bkt.staged = [(port, cycle, v)] ∧ cycle ≤ s.dev.run.committed ∧ bktBusy s.dev = false ∧ oldestDelivered? s.dev port = none ∧ s.dev.tiles = []) ∧
    (∃ s : State, ∃ flow : Nat, ∃ slot : Nat, ∃ cycle : Nat, ∃ rest : List (Nat × Nat × Nat × Nat), ∃ base : Nat, ∃ size : Nat, s.dev.bkt.report = (2, flow, slot, cycle) :: rest ∧ hbmRegion? s.dev 3 = some (base, size) ∧ (s.dev.bkt.tail + 1) % 65536 ≠ s.dev.bkt.head ∧ bktStalled s.dev = false ∧ (
      let ws := [word [(60, 4, 2), fb 59 s.dev.bkt.phase, (30, 18, flow), (0, 24, slot)], w64 cycle]
      ∃ n, ∃ d, engineCall (enginePacket bktNode (base + 16 * s.dev.bkt.tail) true 2 ws s.dev) [] s.dev = (n, d) ∧ n ≠ 0)) ∧
    (∃ s : State, ∃ flow : Nat, ∃ slot : Nat, ∃ cycle : Nat, ∃ rest : List (Nat × Nat × Nat × Nat), ∃ base : Nat, ∃ size : Nat, s.dev.bkt.report = (2, flow, slot, cycle) :: rest ∧ hbmRegion? s.dev 3 = some (base, size) ∧ (s.dev.bkt.tail + 1) % 65536 ≠ s.dev.bkt.head ∧ bktStalled s.dev = false ∧ (
      let ws := [word [(60, 4, 2), fb 59 s.dev.bkt.phase, (30, 18, flow), (0, 24, slot)], w64 cycle]
      ∃ n, ∃ d, engineCall (enginePacket bktNode (base + 16 * s.dev.bkt.tail) true 2 ws s.dev) [] s.dev = (n, d) ∧ n = 0)) ∧
    (∃ s : State, (s.dev.bkt.tail + 1) % 65536 = s.dev.bkt.head) ∧
    (∃ d : Dev, ∃ port : Nat, ∃ cycle : Nat, ∃ v : W64, ∃ x : Desc, ∃ y : Desc, oldestDelivered? d port = some x ∧ d.bkt.descs = [x, y] ∧ x.slot ≠ noSlot ∧ y.slot ≠ x.slot ∧ x.succ = [y.slot] ∧ y.deps = 1 ∧ y.st = 1) ∧
    (∃ s : State, BasketFree s.dev) ∧
    (∃ s : State, ∃ port : Nat, ∃ cycle : Nat, ∃ v : W64, ∃ x : Desc, s.dev.bkt.staged = [(port, cycle, v)] ∧ cycle ≤ s.dev.run.committed ∧ bktBusy s.dev = false ∧ oldestDelivered? s.dev port = some x ∧ x.slot ≠ noSlot) ∧
    (∃ s : State, bktBlocked s.dev = true) ∧
    (∃ s : State, ∃ kind : Nat, ∃ flow : Nat, ∃ slot : Nat, ∃ cycle : Nat, ∃ rest : List (Nat × Nat × Nat × Nat), ∃ base : Nat, ∃ size : Nat, s.dev.bkt.report = (kind, flow, slot, cycle) :: rest ∧ hbmRegion? s.dev 3 = some (base, size) ∧ (s.dev.bkt.tail + 1) % 65536 ≠ s.dev.bkt.head ∧ bktStalled s.dev = false ∧ (
      let ws := [word [(60, 4, kind), fb 59 s.dev.bkt.phase, (30, 18, flow), (0, 24, slot)], w64 cycle]
      (engineCall (enginePacket bktNode (base + 16 * s.dev.bkt.tail) true 2 ws s.dev) [] s.dev).1 = 0)) ∧
    (∃ s : State, (s.dev.bkt.report = [] ∨ bktStalled s.dev = true ∨ hbmRegion? s.dev 3 = none)) :=
  ⟨⟨on { up .running with bkt.staged := [(4095, 0, 9)] }, 4095, 0, 9, by decide +kernel⟩,
   ⟨on { up .running with bkt.staged := [(4095, 0, 9)] }, 4095, 0, 9, by decide +kernel⟩,
   ⟨on (hbm 3 0 0x20_0000 { up .running with bkt.report := [(2, 3, 4, 5)], sn.dead := [(0, 1)] }), 3, 4, 5, [], 0, 0x20_0000, by decide +kernel, by decide +kernel, by decide +kernel, by decide +kernel, _, _, eta_mk _, by decide +kernel⟩,
   ⟨on (hbm 3 0 0x20_0000 { up .running with bkt.report := [(2, 3, 4, 5)] }), 3, 4, 5, [], 0, 0x20_0000, by decide +kernel, by decide +kernel, by decide +kernel, by decide +kernel, _, _, eta_mk _, by decide +kernel⟩,
   ⟨on { up .running with bkt.tail := 65535 }, by decide +kernel⟩,
   ⟨{ up .running with bkt.descs := [{ readyDesc with st := 3, succ := [8] }, { readyDesc with slot := 8, deps := 1, st := 1 }] }, 0, 5, 9, { readyDesc with st := 3, succ := [8] }, { readyDesc with slot := 8, deps := 1, st := 1 }, by decide +kernel⟩,
   ⟨on { up .running with bkt.staged := [(4095, 0, 9), (0, 0, 9)] }, by decide +kernel⟩,
   ⟨on { up .running with bkt.staged := [(0, 0, 9)], bkt.descs := [{ readyDesc with st := 3 }] }, 0, 0, 9, { readyDesc with st := 3 }, by decide +kernel⟩,
   ⟨on { up .running with trc.active := true, trc.enable := true, trc.waiting := [⟨0x20, 8, [0], 0⟩], trc.done := List.replicate 16 [] }, by decide +kernel⟩,
   ⟨on (hbm 3 0 0x20_0000 { up .running with bkt.ringDue := true, bkt.report := [(1, 3, 7, 5)], bkt.descs := [{ readyDesc with st := 4 }] }), 1, 3, 7, 5, [], 0, 0x20_0000, by decide +kernel⟩,
   ⟨on (up .running), by decide +kernel⟩⟩

theorem witness_LinkControl :
    (∃ s : State, ∃ x : Seat, ∃ lane : Fin 1024, ∃ v : W64, ∃ d : Dev, Passes (.seat x) (aLane lane 0x400) s d ∧ (x = .manager ∨ x = .board) ∧ cfgOn (linkOf d lane).cfg = false ∧ (
      let w := maskW 0xFFF0 0 v
      cfgOn w = true ∧ lane.val % cfgLanes w = 0 ∧ overlaps d lane (cfgLanes w) = false)) ∧
    (∃ s : State, ∃ x : Seat, ∃ lane : Fin 1024, ∃ v : W64, ∃ d : Dev, Passes (.seat x) (aLane lane 0x400) s d ∧ (x = .manager ∨ x = .board) ∧ (
      let w := maskW 0xFFF0 0 v
      cfgOn w = true ∧ (lane.val % cfgLanes w ≠ 0 ∨ overlaps d lane (cfgLanes w) = true))) ∧
    (∃ s : State, ∃ x : Seat, ∃ lane : Fin 1024, ∃ v : W64, Judged s ∧ x ≠ .manager ∧ x ≠ .board) ∧
    (∃ s : State, ∃ x : Seat, ∃ lane : Fin 1024, ∃ d : Dev, Passes (.seat x) (aLane lane 0x408) s d ∧ (x = .manager ∨ x = .board) ∧ cfgOn (linkOf d lane).cfg = true ∧ lanesEntering d lane = false ∧ linkState d lane = 0 ∧ trainCode d lane = 0) ∧
    (∃ s : State, ∃ x : Seat, ∃ lane : Fin 1024, ∃ d : Dev, Passes (.seat x) (aLane lane 0x408) s d ∧ (x = .manager ∨ x = .board) ∧ cfgOn (linkOf d lane).cfg = true ∧ lanesEntering d lane = false ∧ linkState d lane = 0 ∧ trainCode d lane ≠ 0) ∧
    (∃ s : State, ∃ x : Seat, ∃ c : Cmd, ∃ rest : List Cmd, ∃ l : Nat, Turn s x 0x0701 c rest ∧ c.relayed = false ∧ (seatOf s.dev.host x).discard = false ∧ namedLink s.dev (c.par 1) = some l ∧ lanesEntering s.dev l = false ∧ linkState s.dev l = 0 ∧ trainCode s.dev l = 0) ∧
    (∃ s : State, ∃ x : Seat, ∃ lane : Fin 1024, ∃ d : Dev, Passes (.seat x) (aLane lane 0x408) s d ∧ (x = .manager ∨ x = .board) ∧ cfgOn (linkOf d lane).cfg = true ∧ inUse d lane = false) ∧
    (∃ s : State, ∃ x : Seat, ∃ lane : Fin 1024, ∃ d : Dev, Passes (.seat x) (aLane lane 0x408) s d ∧ (x = .manager ∨ x = .board) ∧ cfgOn (linkOf d lane).cfg = true ∧ inUse d lane = true) ∧
    (∃ s : State, ∃ x : Seat, ∃ c : Cmd, ∃ rest : List Cmd, ∃ l : Nat, Turn s x 0x0702 c rest ∧ c.relayed = false ∧ (seatOf s.dev.host x).discard = false ∧ namedLink s.dev (c.par 1) = some l ∧ inUse s.dev l = false) ∧
    (∃ s : State, ∃ lane : Fin 1032, enteringLinks s.dev lane = []) ∧
    (∃ s : State, ∃ x : Seat, ∃ lane : Fin 1024, ∃ v : W64, ∃ d : Dev, Passes (.seat x) (aLane lane 0x400) s d ∧ (x = .manager ∨ x = .board) ∧ cfgOn v = false ∧ inUse d lane = true) ∧
    (∃ s : State, ∃ lane : Fin 1032, lanesRun s.dev lane = true ∧ (∀ l, (linkOf s.dev l).restart = false)) ∧
    (∃ s : State, ∃ lane : Fin 1032, ∃ l : Nat, lanesRun s.dev lane = true ∧ enteringLinks s.dev lane = [l] ∧ l < 1024 ∧ cfgOn (linkOf s.dev l).cfg = true ∧ twf Link.reset s.dev.links = true ∧ (linkOf s.dev l).restart = true ∧ (∀ k, k ≠ l → (linkOf s.dev k).restart = false) ∧ lanesEntering s.dev l = true ∧ (
      let d := updLink s.dev l fun E => { E with entering := 0 }
      lanesEntering d l = false)) :=
  ⟨⟨on (up .idle), .manager, 1016, 0xA630, _, passes_mk (by decide +kernel), by decide +kernel⟩,
   ⟨on (up .idle), .board, 1023, 0x8230, _, passes_mk (by decide +kernel), by decide +kernel⟩,
   ⟨on (up .idle), .run, 0, 0x8030, by decide +kernel⟩,
   ⟨on (link .down Link.reset (up .idle)), .manager, 0, _, passes_mk (by decide +kernel), by decide +kernel⟩,
   ⟨on (link .down Link.reset { up .idle with clk.stage := 4 }), .board, 0, _, passes_mk (by decide +kernel), by decide +kernel⟩,
   ⟨turn 0x0701 [0] (link .down Link.reset (up .idle)), .manager, _, _, 0, ⟨rfl, rfl, rfl, rfl, by decide +kernel⟩, by decide +kernel⟩,
   ⟨on (link .up Link.reset (up .idle)), .manager, 0, _, passes_mk (by decide +kernel), by decide +kernel⟩,
   ⟨on (link .up Link.reset (tile { Tile.reset with stores := [(storeKey kBIND 0, [(32, 0xC000_0000_0000_0005)])] } (up .running))), .manager, 0, _, passes_mk (by decide +kernel), by decide +kernel⟩,
   ⟨turn 0x0702 [0] (link .up Link.reset (up .idle)), .manager, _, _, 0, ⟨rfl, rfl, rfl, rfl, by decide +kernel⟩, by decide +kernel⟩,
   ⟨on (link .down Link.reset (up .idle)), 0, by decide +kernel⟩,
   ⟨on (link .up Link.reset (tile { Tile.reset with stores := [(storeKey kBIND 0, [(32, 0xC000_0000_0000_0005)])] } (up .running))), .manager, 0, 0x0010, _, passes_mk (by decide +kernel), by decide +kernel⟩,
   ⟨on (link .down { Link.reset with entering := 1 } (up .idle)), 0, by decide +kernel, fun l => by cases l <;> rfl⟩,
   ⟨on (link .down { Link.reset with entering := 1, restart := true } (up .idle)), 0, 0, by decide +kernel, by decide +kernel, by decide +kernel, by decide +kernel, by decide +kernel, by decide +kernel, fun k hk => by cases k with | zero => exact absurd rfl hk | succ n => rfl, by decide +kernel⟩⟩

theorem witness_LaneTests :
    (∃ s : State, ∃ x : Seat, ∃ lane : Fin 1032, ∃ v : W64, ∃ d : Dev, Passes (.seat x) (aLane lane 0x8) s d ∧ (x = .manager ∨ x = .board) ∧ fld v 2 0 ≠ 0 ∧ (laneOf d lane).st = .down) ∧
    (∃ s : State, ∃ x : Seat, ∃ lane : Fin 1032, ∃ v : W64, ∃ d : Dev, Passes (.seat x) (aLane lane 0x8) s d ∧ (x = .manager ∨ x = .board) ∧ fld v 2 0 = 0 ∧ (laneOf d lane).st = .loopback) ∧
    (∃ s : State, ∃ x : Seat, ∃ lane : Fin 1032, ∃ v : W64, ∃ d : Dev, Passes (.seat x) (aLane lane 0x8) s d ∧ (x = .manager ∨ x = .board) ∧ fld v 2 0 ≠ 0 ∧ (laneOf d lane).st ≠ .down ∧ (∀ l, linkOfLane? d lane = some l → inUse d l = false)) ∧
    (∃ s : State, ∃ x : Seat, ∃ lane : Fin 1032, ∃ v : W64, ∃ d : Dev, Passes (.seat x) (aLane lane 0x40) s d ∧ (x = .manager ∨ x = .board)) ∧
    (∃ s : State, ∃ lane : Fin 1032, lanesRun s.dev lane = true ∧ (laneOf s.dev lane).st = .loopback ∧ bit (laneOf s.dev lane).pat 3 = true ∧ ((laneOf s.dev lane).loop = 4 → (laneOf s.dev lane).farLock = true) ∧ ((laneOf s.dev lane).loop = 2 ∨ (laneOf s.dev lane).loop = 3 → 64 ≤ (laneOf s.dev lane).clean)) ∧
    (∃ s : State, ∃ lane : Fin 1032, ∃ ppm : Int, lanesRun s.dev lane = true ∧ (laneOf s.dev lane).st = .loopback ∧ (laneOf s.dev lane).loop = 4) ∧
    (∃ s : State, ∃ x : Seat, ∃ lane : Fin 1032, ∃ v : W64, ∃ d : Dev, Passes (.seat x) (aLane lane 0x60) s d ∧ (x = .manager ∨ x = .board) ∧ bit v 31 = true ∧ ((laneOf d lane).st = .up ∨ (laneOf d lane).st = .loopback)) ∧
    (∃ s : State, ∃ x : Seat, ∃ lane : Fin 1032, ∃ v : W64, ∃ d : Dev, Passes (.seat x) (aLane lane 0x60) s d ∧ (x = .manager ∨ x = .board) ∧ bit v 31 = true ∧ (laneOf d lane).st ≠ .up ∧ (laneOf d lane).st ≠ .loopback ∧ (laneOf d lane).st ≠ .scan) ∧
    (∃ s : State, ∃ lane : Fin 1032, ∃ n : Nat, lanesRun s.dev lane = true ∧ (laneOf s.dev lane).st = .scan) ∧
    (∃ s : State, ∃ lane : Fin 1032, ∃ n : Nat, lanesRun s.dev lane = false) :=
  ⟨⟨on (up .idle), .board, 1023, 7, _, passes_mk (by decide +kernel), by decide +kernel⟩,
   ⟨on { up .idle with lanes := [(1023, { Lane.reset with st := .loopback })] }, .manager, 1023, 0, _, passes_mk (by decide +kernel), by decide +kernel⟩,
   ⟨on { up .idle with lanes := [(1023, { Lane.reset with st := .up })] }, .manager, 1023, 1, _, passes_mk (by decide +kernel), by decide +kernel⟩,
   ⟨on (up .idle), .board, 1031, 0xFF, _, passes_mk (by decide +kernel), by decide +kernel⟩,
   ⟨on { up .idle with lanes := [(0, { Lane.reset with st := .loopback, pat := 8 })] }, 0, by decide +kernel⟩,
   ⟨on { up .idle with lanes := [(0, { Lane.reset with st := .loopback, loop := 4 })] }, 0, 250, by decide +kernel⟩,
   ⟨on { up .idle with lanes := [(0, { Lane.reset with st := .loopback })] }, .manager, 0, 0x8000_0000, _, passes_mk (by decide +kernel), by decide +kernel⟩,
   ⟨on (up .idle), .manager, 0, 0x8000_0000, _, passes_mk (by decide +kernel), by decide +kernel⟩,
   ⟨on { up .idle with lanes := [(0, { Lane.reset with st := .scan })] }, 0, 0xFF_FFFF_FFFF, by decide +kernel⟩,
   ⟨on { up .running with sn.domains := [(8, 2)] }, 0, 0, by decide +kernel⟩⟩

theorem witness_LinkTraining :
    (∃ s : State, ∃ lane : Fin 1032, lanesRun s.dev lane = true ∧ (laneOf s.dev lane).st = .training ∧ bit (laneOf s.dev lane).cfg 3 = true ∧ (laneOf s.dev lane).adapted = false) ∧
    (∃ s : State, ∃ lane : Fin 1032, ∃ ppm : Int, ∃ l : Nat, lanesRun s.dev lane = true ∧ linkOfLane? s.dev lane = some l ∧ (laneOf s.dev lane).st = .training ∧ -200 ≤ ppm ∧ ppm ≤ 200) ∧
    (∃ s : State, ∃ lane : Fin 1032, ∃ ppm : Int, ∃ l : Nat, lanesRun s.dev lane = true ∧ linkOfLane? s.dev lane = some l ∧ (laneOf s.dev lane).st = .training ∧ (ppm < -200 ∨ 200 < ppm)) ∧
    (∃ s : State, ∃ lane : Fin 1032, ∃ l : Nat, lanesRun s.dev lane = true ∧ linkOfLane? s.dev lane = some l ∧ linkState s.dev l = 3) ∧
    (∃ s : State, ∃ lane : Fin 1032, lanesRun s.dev lane = true ∧ linkOfLane? s.dev lane = none ∧ ((laneOf s.dev lane).st = .locked ∨ (laneOf s.dev lane).st = .up ∨ (laneOf s.dev lane).st = .scan)) ∧
    (∃ s : State, ∃ lane : Fin 1032, ∃ b : W64, ∃ skew : Nat, ∃ l : Nat, lanesRun s.dev lane = true ∧ linkOfLane? s.dev lane = some l ∧ (laneOf s.dev lane).st = .locked ∧ linkState s.dev l ≠ 3 ∧ fld b 63 56 = 0xA3 ∧ trainCheck s.dev l lane b skew ≠ 0 ∧ trainCheck s.dev l lane b skew ≠ 0x0810) ∧
    (∃ s : State, ∃ lane : Fin 1032, ∃ b : W64, ∃ skew : Nat, ∃ l : Nat, lanesRun s.dev lane = true ∧ linkOfLane? s.dev lane = some l ∧ lane.val < 1024 ∧ (laneOf s.dev lane).st = .locked ∧ linkState s.dev l ≠ 3 ∧ fld b 63 56 = 0xA3 ∧ trainCheck s.dev l lane b skew = 0 ∧ (laneOf s.dev lane).trains = 7 ∧ (laneOf s.dev lane).lastTrain = setBit b 40 false ∧ bit b 40 = true ∧ (∀ i ∈ members s.dev l, i ≠ lane.val → (laneOf s.dev i).st = .locked ∧ (laneOf s.dev i).gotAck = true) ∧ cfgRate (linkCfg s.dev l) ≠ 2) ∧
    (∃ s : State, ∃ lane : Fin 1032, ∃ l : Nat, lanesRun s.dev lane = true ∧ linkOfLane? s.dev lane = some l ∧ (laneOf s.dev lane).st = .training ∧ (laneOf s.dev lane).signal = false ∧ (linkOf s.dev l).retraining = false) ∧
    (∃ s : State, ∃ lane : Fin 1032, ∃ l : Nat, lanesRun s.dev lane = true ∧ linkOfLane? s.dev lane = some l ∧ (linkOf s.dev l).training = true ∧ (linkOf s.dev l).retraining = false) ∧
    (∃ s : State, ∃ lane : Fin 1032, ∃ l : Nat, lanesRun s.dev lane = true ∧ linkOfLane? s.dev lane = some l ∧ (linkOf s.dev l).retraining = true) ∧
    (∃ s : State, ∃ lane : Fin 1032, ∃ b : W64, ∃ skew : Nat, ∃ l : Nat, lanesRun s.dev lane = true ∧ linkOfLane? s.dev lane = some l ∧ (laneOf s.dev lane).st = .locked ∧ linkState s.dev l ≠ 3 ∧ fld b 63 56 = 0xA3 ∧ trainCheck s.dev l lane b skew = 0 ∧ l < 1024 ∧ bit b 40 = false ∧ (laneOf s.dev lane).gotAck = false ∧ lane.val ∈ members s.dev l) ∧
    (∃ s : State, ∃ lane : Fin 1032, ∃ b : W64, ∃ skew : Nat, ∃ l : Nat, lanesRun s.dev lane = true ∧ linkOfLane? s.dev lane = some l ∧ (laneOf s.dev lane).st = .locked ∧ linkState s.dev l ≠ 3 ∧ fld b 63 56 ≠ 0xA3 ∧ fld b 63 56 ≠ 0x5C) ∧
    (∃ s : State, ∃ lane : Fin 1032, ∃ b : W64, ∃ skew : Nat, ∃ l : Nat, lanesRun s.dev lane = true ∧ linkOfLane? s.dev lane = some l ∧ ((laneOf s.dev lane).st = .training ∨ (laneOf s.dev lane).st = .locked) ∧ linkState s.dev l ≠ 3 ∧ fld b 63 56 = 0x5C) ∧
    (∃ s : State, ∃ lane : Fin 1032, ∃ b : W64, ∃ skew : Nat, lanesRun s.dev lane = true ∧ linkOfLane? s.dev lane = some 1024 ∧ (laneOf s.dev lane).st = .locked ∧ linkState s.dev 1024 ≠ 3 ∧ fld b 63 56 = 0xA3 ∧ trainCheck s.dev 1024 lane b skew = 0x0810) ∧
    (∃ s : State, ∃ lane : Fin 1032, ∃ ppm : Int, ∃ b : W64, ∃ skew : Nat, lanesRun s.dev lane = false) :=
  ⟨⟨on { up .idle with lanes := [(1031, { Lane.reset with st := .training, cfg := 8 })] }, 1031, by decide +kernel⟩,
   ⟨on (link .training Link.reset (up .idle)), 0, 200, 0, by decide +kernel⟩,
   ⟨on (link .training Link.reset (up .idle)), 0, -201, 0, by decide +kernel⟩,
   ⟨on (link .up Link.reset (up .idle)), 0, 0, by decide +kernel⟩,
   ⟨on { up .idle with lanes := [(1023, { Lane.reset with st := .locked })] }, 1023, by decide +kernel⟩,
   ⟨on (link .locked Link.reset (up .idle)), 0, 0xA300_0000_0000_0000, 0, 0, by decide +kernel⟩,
   ⟨on { link .locked Link.reset (up .idle) with lanes := [(0, { Lane.reset with st := .locked, trains := 7, lastTrain := 0xA332_0000_0000_0000 })] }, 0, 0xA332_0100_0000_0000, 32, 0, by decide +kernel⟩,
   ⟨on (link .training Link.reset (up .idle)), 0, 0, by decide +kernel⟩,
   ⟨on (link .training { Link.reset with training := true } (up .idle)), 0, 0, by decide +kernel⟩,
   ⟨on (link .training { Link.reset with retraining := true } (up .idle)), 0, 0, by decide +kernel⟩,
   ⟨on (link .locked Link.reset (up .running)), 0, 0xA3330010_A4000000, 0, 0, by decide +kernel⟩,
   ⟨on (link .locked Link.reset (up .running)), 0, 0, 0, 0, by decide +kernel⟩,
   ⟨on (link .locked Link.reset (up .running)), 0, 0x5C00_0000_0000_0000, 0, 0, by decide +kernel⟩,
   ⟨on (pairLanes .locked (up .running)), 1024, 0xA333_3000_A400_0000, 0, by decide +kernel⟩,
   ⟨on { up .running with clk.frozen := true }, 0, 0, 0, 0, by decide +kernel⟩⟩

theorem witness_LinkFrames :
    (∃ s : State, ∃ lane : Fin 1032, ∃ h : W64, ∃ ws : List W64, ∃ l : Nat, lanesRun s.dev lane = true ∧ linkOfLane? s.dev lane = some l ∧ l < 1024 ∧ linkState s.dev l = 3 ∧ cfgMode (linkOf s.dev l).cfg = 0 ∧ fld h 63 56 = 0xA1 ∧ ws.length = fld h 20 16 + 1 ∧ ws.length ≤ 4 ∧ crcGood h ws = true ∧ fld h 55 44 = expected (linkOf s.dev l)) ∧
    (∃ s : State, ∃ lane : Fin 1032, ∃ h : W64, ∃ ws : List W64, ∃ valid : Bool, ∃ l : Nat, lanesRun s.dev lane = true ∧ linkOfLane? s.dev lane = some l ∧ linkState s.dev l = 3 ∧ (valid = false ∨ fld h 63 56 ≠ 0xA1 ∨ crcGood h ws = false) ∧ (
      let d := updLink (if valid then s.dev else badHeader lane s.dev) l fun E => { E with crcErrors := E.crcErrors + 1 }
      (
      let E := linkOf d l
      E.nakRow ≠ 7))) ∧
    (∃ s : State, ∃ lane : Fin 1032, ∃ h : W64, ∃ ws : List W64, ∃ l : Nat, linkOfLane? s.dev lane = some l ∧ l < 1024 ∧ linkState s.dev l = 3 ∧ cfgMode (linkOf s.dev l).cfg = 0 ∧ fld h 63 56 = 0xA1 ∧ ws.length = fld h 20 16 + 1 ∧ ws.length ≤ 4 ∧ crcGood h ws = true ∧ 2048 ≤ (fld h 55 44 + 4096 - expected (linkOf s.dev l)) % 4096) ∧
    (∃ s : State, ∃ lane : Fin 1032, ∃ h : W64, ∃ ws : List W64, ∃ valid : Bool, ∃ l : Nat, linkOfLane? s.dev lane = some l ∧ linkState s.dev l ≠ 3) ∧
    (∃ s : State, ∃ lane : Fin 1032, ∃ h : W64, ∃ l : Nat, lanesRun s.dev lane = true ∧ linkOfLane? s.dev lane = some l ∧ linkState s.dev l = 3 ∧ fld h 63 56 = 0xA2 ∧ crcGood h [] = true ∧ bit h 20 = false ∧ (l = 1024 → s.dev.pair.inTransfer = none)) ∧
    (∃ s : State, ∃ lane : Fin 1032, ∃ h : W64, ∃ l : Nat, lanesRun s.dev lane = true ∧ linkOfLane? s.dev lane = some l ∧ l < 1024 ∧ linkState s.dev l = 3 ∧ (linkOf s.dev l).nakInRow ≠ 7 ∧ fld h 63 56 = 0xA2 ∧ crcGood h [] = true ∧ bit h 20 = true) ∧
    (∃ s : State, ∃ lane : Fin 1032, ∃ l : Nat, lanesRun s.dev lane = true ∧ linkOfLane? s.dev lane = some l ∧ linkState s.dev l = 3 ∧ (linkOf s.dev l).nakPending = true ∧ (linkOf s.dev l).nakRow ≠ 7) ∧
    (∃ s : State, ∃ lane : Fin 1032, ∃ l : Nat, ∃ F : TxFrame, lanesRun s.dev lane = true ∧ linkOfLane? s.dev lane = some l ∧ linkState s.dev l = 3 ∧ (linkOf s.dev l).replay[(linkOf s.dev l).resend]? = some F) ∧
    (∃ s : State, ∃ lane : Fin 1032, ∃ l : Nat, ∃ ws : List W64, lanesRun s.dev lane = true ∧ linkOfLane? s.dev lane = some l ∧ l < 1024 ∧ linkState s.dev l = 3 ∧ cfgMode (linkOf s.dev l).cfg = 0 ∧ (linkOf s.dev l).replay[(linkOf s.dev l).resend]? = none ∧ ws = (linkOf s.dev l).egress.take (min 4 (linkOf s.dev l).credit) ∧ ws ≠ [] ∧ (linkOf s.dev l).replay.length < 64 * cfgLanes (linkOf s.dev l).cfg) ∧
    (∃ s : State, ∃ lane : Fin 1032, ∃ l : Nat, lanesRun s.dev lane = true ∧ linkOfLane? s.dev lane = some l ∧ linkState s.dev l = 3) ∧
    (∃ s : State, ∃ lane : Fin 1032, ∃ b : W64, ∃ skew : Nat, ∃ l : Nat, lanesRun s.dev lane = true ∧ linkOfLane? s.dev lane = some l ∧ linkState s.dev l = 3 ∧ fld b 63 56 = 0xA3 ∧ (linkOf s.dev l).nakRow ≠ 7) ∧
    (∃ s : State, ∃ lane : Fin 1032, ∃ h : W64, ∃ ws : List W64, ∃ l : Nat, lanesRun s.dev lane = true ∧ linkOfLane? s.dev lane = some l ∧ l < 1024 ∧ linkState s.dev l = 3 ∧ cfgMode (linkOf s.dev l).cfg ≠ 0 ∧ fld h 63 56 = 0xA1 ∧ ws.length = fld h 20 16 + 1 ∧ crcGood h ws = true ∧ fld h 55 44 = expected (linkOf s.dev l)) ∧
    (∃ s : State, ∃ lane : Fin 1032, ∃ h : W64, ∃ ws : List W64, lanesRun s.dev lane = true ∧ linkOfLane? s.dev lane = some 1024 ∧ linkState s.dev 1024 = 3 ∧ fld h 63 56 = 0xA1 ∧ ws.length = fld h 20 16 + 1 ∧ crcGood h ws = true ∧ fld h 55 44 = expected (linkOf s.dev 1024)) ∧
    (∃ s : State, ∃ lane : Fin 1032, ∃ h : W64, ∃ ws : List W64, ∃ l : Nat, lanesRun s.dev lane = true ∧ linkOfLane? s.dev lane = some l ∧ linkState s.dev l = 3 ∧ (linkOf s.dev l).nakRow ≠ 7 ∧ ((ws.length ≠ fld h 20 16 + 1 ∨ frameMax s.dev l < ws.length) ∨ crcGood h ws = true ∧ fld h 63 56 = 0xA1 ∧ (linkOf s.dev l).nakPending = false ∧ fld h 55 44 ≠ expected (linkOf s.dev l) ∧ (fld h 55 44 + 4096 - expected (linkOf s.dev l)) % 4096 < 2048)) ∧
    (∃ s : State, ∃ lane : Fin 1032, ∃ h : W64, ∃ ws : List W64, ∃ valid : Bool, linkOfLane? s.dev lane = none) ∧
    (∃ s : State, ∃ lane : Fin 1032, ∃ h : W64, ∃ ws : List W64, ∃ valid : Bool, linkOfLane? s.dev lane = none) ∧
    (∃ s : State, ∃ lane : Fin 1032, ∃ h : W64, ∃ ws : List W64, ∃ valid : Bool, linkOfLane? s.dev lane = none) ∧
    (∃ s : State, ∃ lane : Fin 1032, ∃ h : W64, ∃ ws : List W64, ∃ valid : Bool, linkOfLane? s.dev lane = none) ∧
    (∃ s : State, ∃ lane : Fin 1032, ∃ h : W64, ∃ ws : List W64, ∃ valid : Bool, linkOfLane? s.dev lane = none) ∧
    (∃ s : State, ∃ lane : Fin 1032, ∃ h : W64, ∃ ws : List W64, ∃ l : Nat, lanesRun s.dev lane = true ∧ linkOfLane? s.dev lane = some l ∧ linkState s.dev l = 3 ∧ (linkOf s.dev l).nakRow = 7 ∧ (linkOf s.dev l).nakSeq = expected (linkOf s.dev l) ∧ crcGood h ws = false) ∧
    (∃ s : State, ∃ lane : Fin 1032, ∃ m : List W64, ∃ rest : List (List W64), lanesRun s.dev lane = true ∧ linkOfLane? s.dev lane = some 1024 ∧ linkState s.dev 1024 = 3 ∧ (linkOf s.dev 1024).replay[(linkOf s.dev 1024).resend]? = none ∧ s.dev.pair.outbox = m :: rest ∧ m ≠ [] ∧ m.length ≤ (linkOf s.dev 1024).credit ∧ (linkOf s.dev 1024).replay.length < replayMax s.dev 1024) ∧
    (∃ s : State, ∃ lane : Fin 1032, ∃ l : Nat, linkOfLane? s.dev lane = some l ∧ linkState s.dev l = 3 ∧ (linkOf s.dev l).replay[(linkOf s.dev l).resend]? = none ∧ (nextWords s.dev l = [] ∨ (linkOf s.dev l).credit < (nextWords s.dev l).length ∨ replayMax s.dev l ≤ (linkOf s.dev l).replay.length)) ∧
    (∃ s : State, ∃ lane : Fin 1032, ∃ h : W64, ∃ ws : List W64, ∃ valid : Bool, lanesRun s.dev lane = false) :=
  ⟨⟨on (link .up { Link.reset with rxSeq := 4095 } (up .running)), 0, frameBlock Link.reset ⟨0, [5]⟩, [5], 0, by decide +kernel⟩,
   ⟨on (link .up Link.reset (up .running)), 0, 0, [], false, 0, by decide +kernel⟩,
   ⟨on (link .up { Link.reset with rxSeq := 0 } (up .running)), 0, frameBlock Link.reset ⟨0, [5]⟩, [5], 0, by decide +kernel⟩,
   ⟨on (link .training Link.reset (up .running)), 0, 0, [], true, 0, by decide +kernel⟩,
   ⟨on (link .up Link.reset (up .running)), 0, idleBlock Link.reset false, 0, by decide +kernel⟩,
   ⟨on (link .up Link.reset (up .running)), 0, idleBlock Link.reset true, 0, by decide +kernel⟩,
   ⟨on (link .up { Link.reset with nakPending := true } (up .running)), 0, 0, by decide +kernel⟩,
   ⟨on (link .up { Link.reset with replay := [⟨0, [5]⟩] } (up .running)), 0, 0, _, by decide +kernel, by decide +kernel, by decide +kernel, rfl⟩,
   ⟨on (link .up { Link.reset with egress := [5], credit := 1 } (up .running)), 0, 0, [5], by decide +kernel⟩,
   ⟨on (link .up Link.reset (up .running)), 0, 0, by decide +kernel⟩,
   ⟨on (link .up Link.reset (up .running)), 0, 0xA300_0000_0000_0000, 0, 0, by decide +kernel⟩,
   ⟨on { up .running with links := [(0, { Link.reset with cfg := 0xA030, rxSeq := 4095 })], lanes := [(0, { Lane.reset with st := .up })] }, 0, frameBlock Link.reset ⟨0, [5]⟩, [5], 0, by decide +kernel⟩,
   ⟨on (pairLanes .up (up .running)), 1024, frameBlock Link.reset ⟨0, [5]⟩, [5], by decide +kernel⟩,
   ⟨on (link .up { Link.reset with rxSeq := 4094 } (up .running)), 0, frameBlock Link.reset ⟨0, [5]⟩, [5], 0, by decide +kernel⟩,
   ⟨on (up .running), 0, 0, [], true, by decide +kernel⟩,
   ⟨on (up .running), 0, 0, [], true, by decide +kernel⟩,
   ⟨on (up .running), 0, 0, [], true, by decide +kernel⟩,
   ⟨on (up .running), 0, 0, [], true, by decide +kernel⟩,
   ⟨on (up .running), 0, 0, [], true, by decide +kernel⟩,
   ⟨on (link .up { Link.reset with nakRow := 7, nakSeq := 0 } (up .running)), 0, 0, [5], 0, by decide +kernel⟩,
   ⟨on (pairLanes .up { up .running with pair.outbox := [[5]], links := [(1024, { Link.reset with cfg := (linkOf (up .running) 1024).cfg, credit := 1 })] }), 1024, [5], [], by decide +kernel⟩,
   ⟨on (link .up Link.reset (up .running)), 0, 0, by decide +kernel⟩,
   ⟨on { up .running with clk.frozen := true }, 0, 0, [], true, by decide +kernel⟩⟩

theorem witness_SystemPlans :
    (∃ s : State, ∃ lane : Fin 1024, nocOn s.dev.clk = true ∧ lostLink s.dev lane = true ∧ s.dev.run.st = .running ∧ s.dev.sys.lost = false) ∧
    (∃ s : State, ∃ lane : Fin 1024, nocOn s.dev.clk = true ∧ lostLink s.dev lane = true ∧ s.dev.run.st ≠ .running ∧ s.dev.sys.lost = false) ∧
    (∃ s : State, ∃ lane : Fin 1024, (lostLink s.dev lane = false ∨ nocOn s.dev.clk = false)) ∧
    (∃ s : State, ∃ x : Seat, ∃ d : Dev, Passes (.seat x) (aRun 0xC08) s d ∧ (x = .manager ∨ x = .board) ∧ 3 ≤ stCode d.run.st ∧ d.sys.master = true) ∧
    (∃ s : State, ∃ x : Seat, ∃ d : Dev, Passes (.seat x) (aRun 0xC08) s d ∧ (x = .manager ∨ x = .board) ∧ 3 ≤ stCode d.run.st ∧ d.sys.master = false) ∧
    (∃ s : State, ∃ x : Seat, ∃ c : Cmd, ∃ rest : List Cmd, Turn s x 0x0801 c rest ∧ c.relayed = false ∧ (seatOf s.dev.host x).discard = false ∧ 3 ≤ stCode s.dev.run.st ∧ s.dev.sys.master = true) ∧
    (∃ s : State, ∃ x : Seat, ∃ d : Dev, Passes (.seat x) (aRun 0xC08) s d ∧ (x = .manager ∨ x = .board) ∧ planRewindCode d = 0) ∧
    (∃ s : State, ∃ x : Seat, ∃ d : Dev, Passes (.seat x) (aRun 0xC08) s d ∧ (x = .manager ∨ x = .board) ∧ planRewindCode d ≠ 0) ∧
    (∃ s : State, ∃ x : Seat, ∃ c : Cmd, ∃ rest : List Cmd, Turn s x 0x0802 c rest ∧ c.relayed = false ∧ (seatOf s.dev.host x).discard = false ∧ (
      let d := (List.range 64).foldl (fun d m => writeViewH m (c.par (2 * m + 2)) (writeViewC m (c.par (2 * m + 1)) d)) s.dev
      planRewindCode d = 0)) ∧
    (∃ s : State, ∃ x : Seat, ∃ d : Dev, Passes (.seat x) (aRun 0xC08) s d ∧ (x = .manager ∨ x = .board) ∧ d.run.st = .stranded) ∧
    (∃ s : State, ∃ x : Seat, ∃ d : Dev, Passes (.seat x) (aRun 0xC08) s d ∧ (x = .manager ∨ x = .board) ∧ d.run.st ≠ .stranded) ∧
    (∃ s : State, ∃ x : Seat, ∃ c : Cmd, ∃ rest : List Cmd, Turn s x 0x0803 c rest ∧ c.relayed = false ∧ (seatOf s.dev.host x).discard = false ∧ s.dev.run.st = .stranded) :=
  ⟨⟨on (link .down { Link.reset with retrainFails := 3 } (tile { Tile.reset with stores := [(storeKey kBIND 0, [(32, 0xC000_0000_0000_0005)])] } (up .running))), 0, by decide +kernel⟩,
   ⟨on (link .down { Link.reset with retrainFails := 3 } (tile { Tile.reset with stores := [(storeKey kBIND 0, [(32, 0xC000_0000_0000_0005)])] } (up .stopped))), 0, by decide +kernel⟩,
   ⟨on (up .running), 1023, by decide +kernel⟩,
   ⟨on { up .loaded with sys.master := true }, .board, _, passes_mk (by decide +kernel), by decide +kernel⟩,
   ⟨on (up .faulted), .manager, _, passes_mk (by decide +kernel), by decide +kernel⟩,
   ⟨turn 0x0801 [] { up .loaded with sys.master := true }, .manager, _, _, ⟨rfl, rfl, rfl, rfl, by decide +kernel⟩, by decide +kernel⟩,
   ⟨on { up .stopped with sys.master := true, sys.viewCommitted := [(63, 0x8000_0000_0000_0005)] }, .manager, _, passes_mk (by decide +kernel), by decide +kernel⟩,
   ⟨on (up .stopped), .manager, _, passes_mk (by decide +kernel), by decide +kernel⟩,
   ⟨turn 0x0802 [0x8000_0000_0000_0005] { up .stopped with sys.master := true }, .manager, _, _, ⟨rfl, rfl, rfl, rfl, by decide +kernel⟩, by decide +kernel⟩,
   ⟨on (up .stranded), .board, _, passes_mk (by decide +kernel), by decide +kernel⟩,
   ⟨on (up .stopped), .board, _, passes_mk (by decide +kernel), by decide +kernel⟩,
   ⟨turn 0x0803 [] (up .stranded), .manager, _, _, ⟨rfl, rfl, rfl, rfl, by decide +kernel⟩, by decide +kernel⟩⟩

theorem witness_TwinLink :
    (∃ s : State, lanesRun s.dev 1024 = true ∧ s.dev.pair.enable = true ∧ s.dev.pair.wrongTwin = false ∧ s.dev.pair.detached = false ∧ s.dev.clk.pw ≠ 4 ∧ linkState s.dev 1024 = 0 ∧ lanesEntering s.dev 1024 = false ∧ trainCode s.dev 1024 = 0) ∧
    (∃ s : State, (lanesRun s.dev 1024 = false ∨ s.dev.pair.enable = false ∨ s.dev.pair.wrongTwin = true ∨ s.dev.pair.detached = true)) ∧
    (∃ s : State, ∃ x : Seat, ∃ v : W64, ∃ d : Dev, Passes (.seat x) (aRun 0xC40) s d ∧ (x = .manager ∨ x = .board)) ∧
    (∃ s : State, lanesRun s.dev 1024 = true ∧ pairUp s.dev = true) ∧
    (∃ s : State, pairUp s.dev = false) ∧
    (∃ s : State, ∃ w : W64, lanesRun s.dev 1024 = true ∧ pairUp s.dev = true ∧ fld w 63 56 = 1) ∧
    (∃ s : State, lanesRun s.dev 1024 = true ∧ s.dev.pair.twinDetached = false ∧ s.dev.pair.hbRow < 7) ∧
    (∃ s : State, lanesRun s.dev 1024 = true ∧ s.dev.pair.twinDetached = false ∧ s.dev.pair.hbRow = 7 ∧ s.dev.host.held = []) ∧
    (∃ s : State, lanesRun s.dev 1024 = true ∧ s.dev.pair.twinDetached = true) ∧
    (∃ s : State, ∃ x : Seat, ∃ c : Cmd, lanesRun s.dev 1024 = true ∧ s.dev.pair.twinDetached = false ∧ s.dev.pair.hbRow = 7 ∧ s.dev.host.held = [c] ∧ c.opcode = 0x0810 ∧ c.relayed = false ∧ c.seat = x ∧ (seatOf s.dev.host x).discard = false) ∧
    (∃ s : State, ∃ w : W64, lanesRun s.dev 1024 = false) :=
  ⟨⟨on (pairLanes .down (up .idle)), by decide +kernel⟩,
   ⟨on { up .idle with pair.enable := false }, by decide +kernel⟩,
   ⟨on (up .idle), .board, 0x1F07, _, passes_mk (by decide +kernel), by decide +kernel⟩,
   ⟨on (pairLanes .up (up .idle)), by decide +kernel⟩,
   ⟨on (up .idle), by decide +kernel⟩,
   ⟨on (pairLanes .up (up .idle)), 0x0100_0000_0000_0000, by decide +kernel⟩,
   ⟨on { up .idle with pair.hbRow := 6 }, by decide +kernel⟩,
   ⟨on { up .idle with pair.hbRow := 7 }, by decide +kernel⟩,
   ⟨on { up .idle with pair.twinDetached := true }, by decide +kernel⟩,
   ⟨on { up .idle with pair.hbRow := 7, host.held := [cmd 0x0810 []] }, .manager, cmd 0x0810 [], by decide +kernel⟩,
   ⟨on { up .idle with sn.domains := [(14, 2)] }, 0, by decide +kernel⟩⟩

theorem witness_TwinMessages :
    (∃ s : State, ∃ k : Ckpt, s.dev.pair.inTransfer = some k ∧ s.dev.pair.twinDetached = false ∧ lanesRun s.dev 1024 = true ∧ pairUp s.dev = true ∧ s.dev.pair.mirrorQueued = false) ∧
    (∃ s : State, s.dev.pair.inTransfer = none) ∧
    (∃ s : State, ∃ w : W64, ∃ ws : List W64, ∃ base : Nat, ∃ size : Nat, lanesRun s.dev 1024 = true ∧ pairUp s.dev = true ∧ fld w 63 56 = 2 ∧ mirrorRegion? s.dev = some (base, size) ∧ fld w 39 0 + 8 * ws.length ≤ size / 2 ∧ ws.length ≤ 31 ∧ s.dev.pair.arrived = [] ∧ (
      let a := base + b2n (bit w 48) * (size / 2) + fld w 39 0
      engineStalled 0x40A (hbmDie a) s.dev = false ∧ ∃ n, ∃ d, engineCall (enginePacket 0x40A a true ws.length ws s.dev) [] s.dev = (n, d))) ∧
    (∃ s : State, ∃ w : W64, ∃ ws : List W64, lanesRun s.dev 1024 = true ∧ pairUp s.dev = true ∧ fld w 63 56 = 2 ∧ mirrorRegion? s.dev = none ∧ s.dev.pair.arrived = [] ∧ s.dev.pair.twinDetached = false) ∧
    (∃ s : State, ∃ w : W64, ∃ cycle : W64, ∃ base : Nat, ∃ size : Nat, lanesRun s.dev 1024 = true ∧ pairUp s.dev = true ∧ fld w 63 56 = 3 ∧ mirrorRegion? s.dev = some (base, size) ∧ s.dev.pair.arrived = [] ∧ crc32c (hbmBytes s.dev.mem (base + b2n (bit w 48) * (size / 2) + 64) (s.dev.pair.inLen - 64)) = fld w 31 0) ∧
    (∃ s : State, ∃ w : W64, ∃ cycle : W64, ∃ base : Nat, ∃ size : Nat, lanesRun s.dev 1024 = true ∧ pairUp s.dev = true ∧ fld w 63 56 = 3 ∧ mirrorRegion? s.dev = some (base, size) ∧ s.dev.pair.arrived = [] ∧ crc32c (hbmBytes s.dev.mem (base + b2n (bit w 48) * (size / 2) + 64) (s.dev.pair.inLen - 64)) ≠ fld w 31 0) ∧
    (∃ s : State, ∃ x : Seat, ∃ c : Cmd, ∃ rest : List Cmd, Turn s x 0x0810 c rest ∧ fld (c.par 1) 1 0 = seatNo x ∧ s.dev.pair.twinDetached = false ∧ s.dev.pair.hbRow ≠ 8) ∧
    (∃ s : State, ∃ x : Seat, ∃ c : Cmd, ∃ rest : List Cmd, Turn s x 0x0810 c rest ∧ c.relayed = false ∧ (seatOf s.dev.host x).discard = false ∧ fld (c.par 1) 1 0 = seatNo x ∧ s.dev.pair.twinDetached = false ∧ s.dev.pair.hbRow = 8) ∧
    (∃ s : State, ∃ w : W64, ∃ ws : List W64, lanesRun s.dev 1024 = true ∧ pairUp s.dev = true ∧ fld w 63 56 = 4 ∧ fld w 15 0 = 0 ∧ bit w 53 = true ∧ acceptsRelay s.dev = true ∧ longOp s.dev = false ∧ (
      let x := seatOfNo (fld w 55 54)
      (
      let c := parseCmd x true false (mwriteWords [] 0 ws) (seatOf s.dev.host x).prot (seatOf s.dev.host x).port
      catalogCheck (takeUp x s.dev) c 0x204 = 0))) ∧
    (∃ s : State, ∃ w : W64, ∃ ws : List W64, lanesRun s.dev 1024 = true ∧ pairUp s.dev = true ∧ fld w 63 56 = 4 ∧ fld w 15 0 = 0 ∧ bit w 53 = true ∧ acceptsRelay s.dev = false ∧ s.dev.pair.twinDetached = false) ∧
    (∃ s : State, ∃ w : W64, ∃ ws : List W64, ∃ c : Cmd, lanesRun s.dev 1024 = true ∧ pairUp s.dev = true ∧ fld w 63 56 = 5 ∧ fld w 47 32 = 0 ∧ fld w 15 0 = 0 ∧ bit w 53 = true ∧ s.dev.host.held = [c] ∧ c.opcode = 0x0810 ∧ c.relayed = false ∧ (seatOf s.dev.host c.seat).discard = false) ∧
    (∃ s : State, ∃ x : Seat, ∃ d : Dev, Passes (.seat x) (aRun 0xC48) s d ∧ (x = .manager ∨ x = .board) ∧ detachRefused d = false) ∧
    (∃ s : State, ∃ x : Seat, ∃ d : Dev, Passes (.seat x) (aRun 0xC48) s d ∧ (x = .manager ∨ x = .board) ∧ detachRefused d = true) ∧
    (∃ s : State, ∃ x : Seat, ∃ c : Cmd, ∃ rest : List Cmd, Turn s x 0x0811 c rest ∧ c.relayed = false ∧ (seatOf s.dev.host x).discard = false ∧ detachRefused s.dev = false) ∧
    (∃ s : State, ∃ w : W64, lanesRun s.dev 1024 = true ∧ pairUp s.dev = true ∧ fld w 63 56 = 6 ∧ s.dev.host.held = []) ∧
    (∃ s : State, ∃ w : W64, lanesRun s.dev 1024 = true ∧ s.dev.pair.detaching = true ∧ lanesRun s.dev 1024 = true ∧ pairUp s.dev = true ∧ fld w 63 56 = 7) ∧
    (∃ s : State, ∃ w : W64, lanesRun s.dev 1024 = true ∧ s.dev.pair.detaching = true) ∧
    (∃ s : State, s.dev.pair.detaching = false) ∧
    (∃ s : State, ∃ k : Ckpt, lanesRun s.dev 1024 = true ∧ s.dev.pair.inTransfer = some k ∧ s.dev.pair.twinDetached = true) ∧
    (∃ s : State, ∃ x : Seat, ∃ c : Cmd, ∃ rest : List Cmd, Turn s x 0x0810 c rest ∧ c.relayed = false ∧ (seatOf s.dev.host x).discard = false ∧ fld (c.par 1) 1 0 = seatNo x ∧ s.dev.pair.twinDetached = true) ∧
    (∃ s : State, ∃ w : W64, ∃ ws : List W64, ∃ c : Cmd, lanesRun s.dev 1024 = true ∧ pairUp s.dev = true ∧ fld w 63 56 = 5 ∧ fld w 47 32 = 0x0813 ∧ s.dev.host.held = [c] ∧ c.opcode = 0x0810 ∧ c.relayed = false ∧ (seatOf s.dev.host c.seat).discard = false) ∧
    (∃ s : State, ∃ w : W64, ∃ ws : List W64, lanesRun s.dev 1024 = true ∧ pairUp s.dev = true ∧ fld w 63 56 = 5 ∧ fld w 47 32 = 0x0815) ∧
    (∃ s : State, ∃ lane : Fin 1032, ∃ h : W64, ∃ k : Ckpt, lanesRun s.dev lane = true ∧ linkOfLane? s.dev lane = some 1024 ∧ linkState s.dev 1024 = 3 ∧ fld h 63 56 = 0xA2 ∧ crcGood h [] = true ∧ bit h 20 = false ∧ s.dev.pair.inTransfer = some k ∧ s.dev.pair.mirrorQueued = true ∧ s.dev.pair.outbox.any isMirror = false ∧ ((linkOf (updLink s.dev 1024 (takeAck h)) 1024).replay.any fun F => isMirror F.words) = false) ∧
    (∃ s : State, ∃ w : W64, ∃ ws : List W64, lanesRun s.dev 1024 = true ∧ pairUp s.dev = true ∧ fld w 63 56 = 4 ∧ bit w 53 = false) ∧
    (∃ s : State, ∃ w : W64, ∃ ws : List W64, lanesRun s.dev 1024 = true ∧ pairUp s.dev = true ∧ fld w 63 56 = 5 ∧ fld w 47 32 = 0 ∧ bit w 53 = false) ∧
    (∃ s : State, ∃ w : W64, ∃ ws : List W64, ∃ base : Nat, ∃ size : Nat, lanesRun s.dev 1024 = true ∧ pairUp s.dev = true ∧ fld w 63 56 = 2 ∧ mirrorRegion? s.dev = some (base, size) ∧ s.dev.pair.arrived = [] ∧ engineStalled 0x40A (hbmDie (base + b2n (bit w 48) * (size / 2) + fld w 39 0)) s.dev = true) ∧
    (∃ s : State, ∃ w : W64, ∃ x : W64, ∃ ws : List W64, lanesRun s.dev 1024 = false) :=
  ⟨⟨on (pairLanes .up { up .running with pair.inTransfer := some ⟨5, [], 0, [], []⟩ }), _, rfl, by decide +kernel⟩,
   ⟨on (up .running), by decide +kernel⟩,
   ⟨on (pairLanes .up (hbm 4 0 0x400_0000 (up .idle))), 0x0200_0000_0000_0000, [1], 0, 0x400_0000, by decide +kernel, by decide +kernel, by decide +kernel, by decide +kernel, by decide +kernel, by decide +kernel, by decide +kernel, by decide +kernel, _, _, eta_mk _⟩,
   ⟨on (pairLanes .up (up .idle)), 0x0200_0000_0000_0000, [], by decide +kernel⟩,
   ⟨on (pairLanes .up (hbm 4 0 0x400_0000 (up .idle))), 0x0300_0000_0000_0000, 5, 0, 0x400_0000, by decide +kernel⟩,
   ⟨on (pairLanes .up (hbm 4 0 0x400_0000 (up .idle))), 0x0300_0000_0000_0001, 5, 0, 0x400_0000, by decide +kernel⟩,
   ⟨turn 0x0810 [0, 2] (up .idle), .manager, _, _, ⟨rfl, rfl, rfl, rfl, by decide +kernel⟩, by decide +kernel⟩,
   ⟨turn 0x0810 [0, 2] { up .idle with pair.hbRow := 8 }, .manager, _, _, ⟨rfl, rfl, rfl, rfl, by decide +kernel⟩, by decide +kernel⟩,
   ⟨on (pairLanes .up (up .idle)), 0x0420_0000_0000_0000, [0x0302_0000_0000_0000], by decide +kernel⟩,
   ⟨on (pairLanes .up { up .idle with host.upA := true }), 0x0420_0000_0000_0000, [], by decide +kernel⟩,
   ⟨on (pairLanes .up { up .idle with host.held := [cmd 0x0810 []] }), 0x0520_0000_0000_0000, [], _, by decide +kernel, by decide +kernel, by decide +kernel, by decide +kernel, by decide +kernel, by decide +kernel, rfl, by decide +kernel⟩,
   ⟨on (up .idle), .board, _, passes_mk (by decide +kernel), by decide +kernel⟩,
   ⟨on (up .running), .manager, _, passes_mk (by decide +kernel), by decide +kernel⟩,
   ⟨turn 0x0811 [] (up .idle), .manager, _, _, ⟨rfl, rfl, rfl, rfl, by decide +kernel⟩, by decide +kernel⟩,
   ⟨on (pairLanes .up (up .idle)), 0x0600_0000_0000_0000, by decide +kernel⟩,
   ⟨on (pairLanes .up { up .idle with pair.detaching := true }), 0x0700_0000_0000_0000, by decide +kernel⟩,
   ⟨on { up .idle with pair.detaching := true }, 0, by decide +kernel⟩,
   ⟨on (up .idle), by decide +kernel⟩,
   ⟨on { up .running with pair.inTransfer := some ⟨5, [], 0, [], []⟩, pair.twinDetached := true }, _, by decide +kernel, rfl, by decide +kernel⟩,
   ⟨turn 0x0810 [0, 2] { up .idle with pair.twinDetached := true }, .manager, _, _, ⟨rfl, rfl, rfl, rfl, by decide +kernel⟩, by decide +kernel⟩,
   ⟨on (pairLanes .up { up .idle with host.held := [cmd 0x0810 []] }), 0x0520_0813_0000_0000, [], _, by decide +kernel, by decide +kernel, by decide +kernel, by decide +kernel, rfl, by decide +kernel⟩,
   ⟨on (pairLanes .up { up .idle with pair.inTransfer := some ⟨5, [], 0, [], []⟩ }), 0x0520_0815_0000_0000, [], by decide +kernel⟩,
   ⟨on (pairLanes .up { up .running with pair.inTransfer := some ⟨5, [], 0, [], []⟩, pair.mirrorQueued := true }), 1024, idleBlock Link.reset false, _, by decide +kernel, by decide +kernel, by decide +kernel, by decide +kernel, by decide +kernel, by decide +kernel, rfl, by decide +kernel⟩,
   ⟨on (pairLanes .up (up .running)), 0x0400_0000_0000_0000, [5], by decide +kernel⟩,
   ⟨on (pairLanes .up (up .running)), 0x0500_0000_0000_0005, [5], by decide +kernel⟩,
   ⟨on (pairLanes .up (hbm 4 0 0x400_0000 { up .idle with sn.draining := true, sn.affect := [(0, 1)] })), 0x0200_0000_0000_0000, [1], 0, 0x400_0000, by decide +kernel⟩,
   ⟨on { up .idle with clk.frozen := true }, 0, 0, [], by decide +kernel⟩⟩

theorem witness_HostPorts :
    (∃ s : State, ∃ x : Seat, ∃ a : Nat, s.dev.run.st ≠ .boot ∧ s.dev.clk.pw ≠ 4 ∧ nocOn s.dev.clk = true ∧ keepOn s.dev.clk = true ∧ longOp s.dev = true) ∧
    (∃ s : State, ∃ x : Seat, ∃ a : Nat, ∃ p : Nat, Judged s ∧ x ≠ .manager ∧ p ∈ (askAt true a).perms ∧ bit (seatOf s.dev.host x).prot p = false) ∧
    (∃ s : State, ∃ port : Port, ∃ pf : Fin 3, ∃ x : Seat, seatOfNo pf = x ∧ (seatOf s.dev.host x).session = true ∧ (seatOf s.dev.host x).port = port) ∧
    (∃ s : State, ∃ port : Port, ∃ pf : Fin 3, (seatOf s.dev.host (seatOfNo pf)).session = true ∧ (seatOf s.dev.host (seatOfNo pf)).port ≠ port) ∧
    (∃ s : State, s.dev.clk.wakeEn.getLsbD 3 = false) ∧
    (∃ s : State, s.dev.run.st ≠ .boot) ∧
    (∃ s : State, ∃ x : Seat, ∃ port : Port, s.dev.run.st ≠ .boot ∧ s.dev.clk.frozen = false ∧ portOfSeat x port = true ∧ longOp s.dev = false ∧ (seatOf s.dev.host x).ring = false ∧ WakesNothing s.dev 0 ∧ (seatOf s.dev.host x).session = true ∧ (seatOf s.dev.host x).port = port ∧ (
      let S := seatOf s.dev.host x
      (
      let c := parseCmd x false (cmdForm S) S.cmdBuf S.prot port
      c.opcode ≠ 0x0101 ∧ catalogCheck (takeUp x s.dev) c S.version = 0))) ∧
    (∃ s : State, ∃ x : Seat, ∃ port : Port, s.dev.run.st ≠ .boot ∧ s.dev.clk.frozen = false ∧ portOfSeat x port = true ∧ (longOp s.dev = true ∨ (seatOf s.dev.host x).ring = true)) ∧
    (∃ s : State, ∃ x : Seat, ∃ y : Seat, ∃ c : Cmd, ∃ c' : Cmd, ∃ rest : List Cmd, s.dev.host.order = c :: c' :: rest ∧ c.refused ≠ 0 ∧ c.seat = y ∧ c.relayed = false ∧ c.opcode ≠ 0x0201 ∧ c.opcode ≠ 0x0202 ∧ c.opcode ≠ 0x0401 ∧ (seatOf s.dev.host y).discard = false ∧ foviaFree s.dev = true ∧ x ≠ y ∧ c'.seat = x ∧ c'.opcode = 0x0102 ∧ c'.refused = 0) ∧
    (∃ s : State, ∃ x : Seat, ∃ port : Port, s.dev.run.st ≠ .boot ∧ s.dev.clk.frozen = false ∧ portOfSeat x port = true ∧ longOp s.dev = false ∧ (seatOf s.dev.host x).ring = false ∧ WakesNothing s.dev 0 ∧ (seatOf s.dev.host x).session = false ∧ (
      let S := seatOf s.dev.host x
      (
      let c := parseCmd x false (cmdForm S) S.cmdBuf S.prot port
      c.opcode ≠ 0x0101))) ∧
    (∃ s : State, ∃ x : Seat, ∃ port : Port, ∃ v : W64, ∃ env : PinEnv, (s.dev.clk.pw ≠ 4 ∨ x = .board) ∧ snOpen x s.dev = true ∧ rightPort s.dev x port = true ∧ (seatOf s.dev.host x).snGo = false) ∧
    (∃ s : State, ∃ port : Port, ∃ off : Nat, ∃ env : PinEnv, off % 8 = 0 ∧ off < 2 ^ 32 ∧ noAccess s.dev = false ∧ rightPort s.dev .manager port = true ∧ (
      let r := snAccess (.bar2 8) .manager (s.dev.host.manager.bar2Base * 2 ^ 32 + off) .read env s.irq s.dev
      s.dev.clk.stage ≤ r.dev.clk.stage ∧ r.status = 0)) ∧
    (∃ s : State, ∃ port : Port, ∃ off : Nat, ∃ v : W64, ∃ env : PinEnv, off % 8 = 0 ∧ off < 2 ^ 32 ∧ noAccess s.dev = false ∧ rightPort s.dev .manager port = true ∧ (
      let r := snAccess (.bar2 8) .manager (s.dev.host.manager.bar2Base * 2 ^ 32 + off) (.write v 255) env s.irq s.dev
      s.dev.clk.stage ≤ r.dev.clk.stage ∧ r.status = 0)) ∧
    (∃ s : State, ∃ x : Seat, ∃ port : Port, ∃ a : Nat, ∃ v : W64, 0x2000 ≤ a ∧ noAccess s.dev = false ∧ rightPort s.dev x port = true ∧ a < 2 ^ 40 ∧ a % 8 = 0) ∧
    (∃ s : State, ∃ x : Seat, ∃ port : Port, ∃ a : Nat, ∃ v : W64, 0x400 ≤ a ∧ a < 0xC00 ∧ a % 8 = 0 ∧ noAccess s.dev = false ∧ longOp s.dev = false ∧ portOfSeat x port = true) ∧
    (∃ s : State, ∃ target : Fin 4, ∃ v : W64, noAccess s.dev = false ∧ target.val ≠ 0) ∧
    (∃ s : State, ∃ x : Seat, ∃ target : Fin 4, ∃ v : W64, noAccess s.dev = false ∧ x ≠ .manager) ∧
    (∃ s : State, nocOn s.dev.clk = true) ∧
    (∃ s : State, ∃ x : Seat, ∃ a : Nat, Judged s ∧ (askAt true a).seats.contains x = false) ∧
    (∃ s : State, ∃ x : Seat, ∃ port : Port, ∃ a : Nat, ∃ v : W64, (a < 2 ^ 40 ∧ a % 8 ≠ 0) ∨ (2 ^ 40 ≤ a ∧ a % 4 ≠ 0)) ∧
    (∃ s : State, ∃ x : Seat, ∃ port : Port, ∃ a : Nat, ∃ v : W64, s.dev.clk.pw = 4 ∧ port ≠ .psp ∧ a ≠ 0x10 ∧ a ≠ 2 ^ 40 + 0x10) ∧
    (∃ s : State, ∃ x : Seat, ∃ port : Port, ∃ a : Nat, ∃ v : W64, 0x400 ≤ a ∧ a < 0xC00 ∧ a % 8 = 4 ∧ noAccess s.dev = false ∧ longOp s.dev = false ∧ portOfSeat x port = true) ∧
    (∃ s : State, ∃ x : Seat, ∃ port : Port, ∃ off : Nat, (off = 0x10 ∨ off = 0x28) ∧ noAccess s.dev = false ∧ longOp s.dev = true ∧ portOfSeat x port = true ∧ (rightPort s.dev x port = false ∨ off = 0x10 ∨ s.dev.host.longSeat ≠ x)) ∧
    (∃ s : State, ∃ x : Seat, ∃ port : Port, ∃ v : W64, ∃ env : PinEnv, (s.dev.clk.pw ≠ 4 ∨ x = .board) ∧ snOpen x s.dev = true ∧ rightPort s.dev x port = true ∧ (seatOf s.dev.host x).snGo = true) ∧
    (∃ s : State, ∃ x : Seat, ∃ port : Port, ∃ v : W64, ∃ env : PinEnv, s.dev.clk.pw = 4 ∧ x ≠ .board) ∧
    (∃ s : State, ∃ port : Port, ∃ off : Nat, ∃ env : PinEnv, ∃ d : Dev, off % 8 = 0 ∧ off < 2 ^ 32 ∧ noAccess s.dev = false ∧ rightPort s.dev .manager port = true ∧ (
      let a := s.dev.host.manager.bar2Base * 2 ^ 32 + off
      judge (.seat .manager) false (askAt false a) s.dev = (0, d) ∧ (askAt false a).decoded = true ∧ accessWaits (.seat .manager) false (askAt false a) d = true)) ∧
    (∃ s : State, ∃ port : Port, ∃ off : Nat, ∃ env : PinEnv, ∃ d : Dev, off % 8 = 0 ∧ off < 2 ^ 32 ∧ noAccess s.dev = false ∧ rightPort s.dev .manager port = true ∧ (
      let a := s.dev.host.manager.bar2Base * 2 ^ 32 + off
      judge (.seat .manager) false (askAt false a) s.dev = (0, d) ∧ (askAt false a).decoded = true ∧ ∃ n, ∃ d', accessWaits (.seat .manager) false (askAt false a) d = false ∧ reachNode (.seat .manager) false (askAt false a) d = (n, d') ∧ 0 < n ∧ n < 16)) ∧
    (∃ s : State, ∃ port : Port, ∃ off : Nat, ∃ size : Nat, ∃ acc : Access, ∃ env : PinEnv, bar2Ok off size = false) ∧
    (∃ s : State, ∃ m : Master, ∃ write : Bool, ∃ a : Ask, s.dev.clk.pw ≠ 4 ∧ nocOn s.dev.clk = false) :=
  ⟨⟨on { up .idle with host.longKind := 1 }, .board, 0x60_0007_0100, by decide +kernel⟩,
   ⟨on (up .idle), .debug, 0x60_0007_0100, 62, by decide +kernel⟩,
   ⟨on { up .idle with host.diag.session := true }, .a, 2, .debug, by decide +kernel⟩,
   ⟨on { up .idle with host.diag.session := true }, .b, 2, by decide +kernel⟩,
   ⟨on (up .idle), by decide +kernel⟩,
   ⟨on (up .idle), by decide +kernel⟩,
   ⟨on { up .idle with clk.wakeEn := 0, host.manager.session := true, host.manager.version := 0x204, host.manager.cmdBuf := mwrite [] 0 8 0x0302_0000_0000_0000 }, .manager, .a, by decide +kernel⟩,
   ⟨on { up .idle with clk.wakeEn := 0, host.longKind := 1 }, .board, .psp, by decide +kernel⟩,
   ⟨on { up .idle with host.order := [{ cmd 0x102 [] with seat := .run, refused := 0x101 }, { cmd 0x102 [] with seat := .debug }] }, .debug, .run, { cmd 0x102 [] with seat := .run, refused := 0x101 }, { cmd 0x102 [] with seat := .debug }, [], by decide +kernel⟩,
   ⟨on { up .idle with clk.wakeEn := 0 }, .run, .b, by decide +kernel⟩,
   ⟨on { up .idle with host.manager.snAddr := 0x60_0007_0000 }, .manager, .b, 0, PinEnv.none, by decide +kernel⟩,
   ⟨on { up .idle with host.manager.bar2Base := 0x60 }, .a, 0x7_0000, PinEnv.none, by decide +kernel⟩,
   ⟨on { up .idle with host.manager.bar2Base := 0x60 }, .a, 0x7_0110, 5, PinEnv.none, by decide +kernel⟩,
   ⟨on (up .idle), .manager, .a, 0x60_0007_0110, 5, by decide +kernel⟩,
   ⟨on (up .idle), .run, .b, 0xBF8, 5, by decide +kernel⟩,
   ⟨on (up .idle), 3, 0xFFFF_FFFF_FFFF_FFFF, by decide +kernel⟩,
   ⟨on (up .idle), .run, 0, 0, by decide +kernel⟩,
   ⟨on (up .idle), by decide +kernel⟩,
   ⟨on (up .idle), .run, 0x60_0000_0000, by decide +kernel⟩,
   ⟨on (up .idle), .run, .a, 0x401, 5, by decide +kernel⟩,
   ⟨on { up .idle with clk.pw := 4 }, .run, .a, 0x2000, 5, by decide +kernel⟩,
   ⟨on (up .idle), .run, .b, 0xBFC, 5, by decide +kernel⟩,
   ⟨on { up .idle with host.longKind := 1 }, .run, .a, 0x28, by decide +kernel⟩,
   ⟨on { up .idle with host.run.snGo := true }, .run, .a, 0, PinEnv.none, by decide +kernel⟩,
   ⟨on { up .idle with clk.pw := 4 }, .manager, .a, 1, PinEnv.none, by decide +kernel⟩,
   ⟨on { up .idle with sn.draining := true, sn.affect := [(16, 0x400)], host.manager.bar2Base := 0x60 }, .a, 0x7_0000, PinEnv.none, _, by decide +kernel, by decide +kernel, by decide +kernel, by decide +kernel, pair_mk (by decide +kernel), by decide +kernel⟩,
   ⟨on { up .idle with sn.dead := [(16, 0x400)], host.manager.bar2Base := 0x60 }, .a, 0x7_0000, PinEnv.none, _, by decide +kernel, by decide +kernel, by decide +kernel, by decide +kernel, pair_mk (by decide +kernel), by decide +kernel, _, _, by decide +kernel, eta_mk _, by decide +kernel⟩,
   ⟨on (up .idle), .a, 1, 4, .read, PinEnv.none, by decide +kernel⟩,
   ⟨on { up .idle with clk.pw := 3, clk.gate := 0 }, .core, true, askAt true 0, by decide +kernel⟩⟩

theorem witness_HostCommands :
    (∃ s : State, ∃ x : Seat, ∃ c : Cmd, ∃ rest : List Cmd, ∃ v : Nat, Turn s x 0x0101 c rest ∧ c.relayed = false ∧ (seatOf s.dev.host x).discard = false ∧ chooseVersion c.v1 (c.par 1) = some v) ∧
    (∃ s : State, ∃ x : Seat, ∃ c : Cmd, ∃ rest : List Cmd, Turn s x 0x0101 c rest ∧ c.relayed = false ∧ (seatOf s.dev.host x).discard = false ∧ chooseVersion c.v1 (c.par 1) = none) ∧
    (∃ s : State, ∃ x : Seat, ∃ c : Cmd, ∃ rest : List Cmd, Turn s x 0x0102 c rest ∧ c.relayed = false ∧ (seatOf s.dev.host x).discard = false) ∧
    (∃ s : State, ∃ x : Seat, ∃ c : Cmd, ∃ rest : List Cmd, Turn s x 0x0110 c rest ∧ (c.par 1).toNat < 2 ^ 40 ∧ cmdMay c (askAt false (c.par 1).toNat) (taken c rest s.dev) = true) ∧
    (∃ s : State, ∃ x : Seat, ∃ c : Cmd, ∃ rest : List Cmd, Turn s x 0x0110 c rest ∧ (c.par 1).toNat < 2 ^ 40 ∧ cmdMay c (askAt false (c.par 1).toNat) (taken c rest s.dev) = false) ∧
    (∃ s : State, ∃ x : Seat, ∃ env : PinEnv, ∃ c : Cmd, ∃ rest : List Cmd, Turn s x 0x0111 c rest ∧ (c.par 1).toNat < 2 ^ 40 ∧ cmdMay c (askAt true (c.par 1).toNat) (taken c rest s.dev) = true) ∧
    (∃ s : State, ∃ x : Seat, ∃ c : Cmd, ∃ rest : List Cmd, Turn s x 0x0310 c rest ∧ dumpCode c s.dev = 0) ∧
    (∃ s : State, ∃ x : Seat, ∃ c : Cmd, ∃ rest : List Cmd, Turn s x 0x0310 c rest ∧ c.relayed = false ∧ (seatOf s.dev.host x).discard = false ∧ dumpCode c s.dev ≠ 0) ∧
    (∃ s : State, ∃ c : Cmd, s.dev.host.longKind = 5 ∧ s.dev.host.longCmd = some c ∧ s.dev.host.dumpAbort = false ∧ c.relayed = false ∧ (seatOf s.dev.host c.seat).discard = false) ∧
    (∃ s : State, ∃ x : Seat, ∃ c : Cmd, ∃ rest : List Cmd, Turn s x 0x0902 c rest ∧ c.relayed = false ∧ (seatOf s.dev.host x).discard = false ∧ (fld (c.par 1) 1 0 = 1 ∨ fld (c.par 1) 1 0 = 2) ∧ jtagTest s.dev = false ∧ powerCode (fld (c.par 1) 1 0) s.dev = 0) ∧
    (∃ s : State, ∃ x : Seat, ∃ c : Cmd, ∃ rest : List Cmd, Turn s x 0x0A01 c rest ∧ c.relayed = false ∧ (seatOf s.dev.host x).discard = false ∧ 1 ≤ (c.par 2).toNat ∧ (c.par 2).toNat ≤ 63) ∧
    (∃ s : State, ∃ x : Seat, ∃ c : Cmd, ∃ rest : List Cmd, Turn s x 0x0A02 c rest ∧ s.dev.run.st = .idle ∧ jtagTest s.dev = false ∧ 4 ≤ s.dev.clk.stage) ∧
    (∃ s : State, ∃ failed : BitVec 4, ∃ mask : BitVec 4, ∃ c : Cmd, s.dev.keep.selftest = some mask ∧ s.dev.host.held = [c] ∧ c.opcode = 0x0A02 ∧ c.relayed = false ∧ (seatOf s.dev.host c.seat).discard = false) ∧
    (∃ s : State, ∃ x : Seat, ∃ c : Cmd, ∃ rest : List Cmd, Turn s x 0x0A10 c rest) ∧
    (∃ s : State, ∃ x : Seat, ∃ c : Cmd, ∃ rest : List Cmd, Turn s x 0x0A11 c rest ∧ (
      let bytes := (bytesOfWords (c.params.drop 1)).take (c.length - 8)
      (c.par 1).toNat + bytes.length ≤ 2 ^ 24)) ∧
    (∃ s : State, ∃ x : Seat, ∃ c : Cmd, ∃ rest : List Cmd, Turn s x 0x0A12 c rest ∧ slotState s.dev.keep (!s.dev.clk.slot) = 1) ∧
    (∃ s : State, ∃ x : Seat, ∃ c : Cmd, ∃ rest : List Cmd, Turn s x 0x0A13 c rest ∧ slotState s.dev.keep s.dev.clk.slot = 2) ∧
    (∃ s : State, ∃ x : Seat, ∃ c : Cmd, ∃ rest : List Cmd, Turn s x 0x0A20 c rest ∧ s.dev.run.st ≠ .loading ∧ (
      let b := bytesOfWords (c.params.drop 1)
      (
      let key := (natOfBE (b.take 48), natOfBE ((b.drop 48).take 48))
      onCurve key = true))) ∧
    (∃ s : State, ∃ x : Seat, ∃ c : Cmd, ∃ rest : List Cmd, Turn s x 0x0A21 c rest ∧ s.dev.run.st ≠ .loading ∧ (bit (c.par 1) 0 = true → s.dev.keep.keys ≠ [])) ∧
    (∃ s : State, ∃ x : Seat, ∃ c : Cmd, ∃ rest : List Cmd, Turn s x 0x0A21 c rest ∧ c.relayed = false ∧ (seatOf s.dev.host x).discard = false ∧ s.dev.run.st ≠ .loading ∧ bit (c.par 1) 0 = true ∧ s.dev.keep.keys = []) ∧
    (∃ s : State, ∃ x : Seat, ∃ c : Cmd, ∃ rest : List Cmd, Turn s x 0x0110 c rest ∧ 2 ^ 40 ≤ (c.par 1).toNat) ∧
    (∃ s : State, ∃ x : Seat, ∃ env : PinEnv, ∃ c : Cmd, ∃ rest : List Cmd, Turn s x 0x0111 c rest ∧ 2 ^ 40 ≤ (c.par 1).toNat) ∧
    (∃ s : State, ∃ x : Seat, ∃ env : PinEnv, ∃ c : Cmd, ∃ rest : List Cmd, Turn s x 0x0111 c rest ∧ (c.par 1).toNat < 2 ^ 40 ∧ cmdMay c (askAt true (c.par 1).toNat) (taken c rest s.dev) = false) ∧
    (∃ s : State, ∃ x : Seat, ∃ c : Cmd, ∃ rest : List Cmd, Turn s x 0x0902 c rest ∧ c.relayed = false ∧ (seatOf s.dev.host x).discard = false ∧ (fld (c.par 1) 1 0 = 1 ∨ fld (c.par 1) 1 0 = 2) ∧ jtagTest s.dev = false ∧ powerCode (fld (c.par 1) 1 0) s.dev ≠ 0) ∧
    (∃ s : State, ∃ c : Cmd, s.dev.host.longKind = 5 ∧ s.dev.host.longCmd = some c ∧ s.dev.host.dumpAbort = true ∧ c.relayed = false ∧ (seatOf s.dev.host c.seat).discard = false) ∧
    (∃ s : State, ∃ x : Seat, ∃ c : Cmd, ∃ rest : List Cmd, Turn s x 0x0A02 c rest ∧ c.relayed = false ∧ (seatOf s.dev.host x).discard = false ∧ (s.dev.run.st ≠ .idle ∨ jtagTest s.dev = true)) :=
  ⟨⟨turn 0x0101 [0x0200_0204] (up .idle), .manager, _, _, 0x204, ⟨rfl, rfl, rfl, rfl, by decide +kernel⟩, by decide +kernel⟩,
   ⟨turn 0x0101 [0x0300_0300] (up .idle), .manager, _, _, ⟨rfl, rfl, rfl, rfl, by decide +kernel⟩, by decide +kernel⟩,
   ⟨turn 0x0102 [] (up .idle), .manager, _, _, ⟨rfl, rfl, rfl, rfl, by decide +kernel⟩, by decide +kernel⟩,
   ⟨turn 0x0110 [0x60_0007_0000] (up .idle), .manager, _, _, ⟨rfl, rfl, rfl, rfl, by decide +kernel⟩, by decide +kernel⟩,
   ⟨on { up .idle with host.order := [{ cmd 0x0110 [0x40_0000_0000] with seat := .debug }] }, .debug, _, _, ⟨rfl, rfl, rfl, rfl, by decide +kernel⟩, by decide +kernel⟩,
   ⟨turn 0x0111 [0x60_0007_0110, 5] (up .idle), .manager, PinEnv.none, _, _, ⟨rfl, rfl, rfl, rfl, by decide +kernel⟩, by decide +kernel⟩,
   ⟨turn 0x0310 [1, 0, 0xFFFF_FFFF] (up .loaded), .manager, _, _, ⟨rfl, rfl, rfl, rfl, by decide +kernel⟩, by decide +kernel⟩,
   ⟨turn 0x0310 [0, 0, 0] (up .loaded), .manager, _, _, ⟨rfl, rfl, rfl, rfl, by decide +kernel⟩, by decide +kernel⟩,
   ⟨on { up .loaded with host.longKind := 5, host.longCmd := some (cmd 0x0310 [1, 0, 0xFFFF_FFFF]) }, _, by decide +kernel, rfl, by decide +kernel⟩,
   ⟨turn 0x0902 [2] (up .idle), .manager, _, _, ⟨rfl, rfl, rfl, rfl, by decide +kernel⟩, by decide +kernel⟩,
   ⟨turn 0x0A01 [0, 63] (up .idle), .manager, _, _, ⟨rfl, rfl, rfl, rfl, by decide +kernel⟩, by decide +kernel⟩,
   ⟨turn 0x0A02 [15] (up .idle), .manager, _, _, ⟨rfl, rfl, rfl, rfl, by decide +kernel⟩, by decide +kernel⟩,
   ⟨on { up .idle with keep.selftest := some 15, host.held := [cmd 0x0A02 [15]] }, 8, 15, _, by decide +kernel, rfl, by decide +kernel⟩,
   ⟨turn 0x0A10 [] (up .idle), .manager, _, _, ⟨rfl, rfl, rfl, rfl, by decide +kernel⟩⟩,
   ⟨turn 0x0A11 [0xFF_FFF8, 5] (up .idle), .manager, _, _, ⟨rfl, rfl, rfl, rfl, by decide +kernel⟩, by decide +kernel⟩,
   ⟨turn 0x0A12 [] { up .idle with keep.stB := 1 }, .manager, _, _, ⟨rfl, rfl, rfl, rfl, by decide +kernel⟩, by decide +kernel⟩,
   ⟨turn 0x0A13 [] { up .idle with keep.stA := 2 }, .manager, _, _, ⟨rfl, rfl, rfl, rfl, by decide +kernel⟩, by decide +kernel⟩,
   ⟨turn 0x0A20 basePoint (up .idle), .manager, _, _, ⟨rfl, rfl, rfl, rfl, by decide +kernel⟩, by decide +kernel⟩,
   ⟨turn 0x0A21 [0] (up .idle), .manager, _, _, ⟨rfl, rfl, rfl, rfl, by decide +kernel⟩, by decide +kernel⟩,
   ⟨turn 0x0A21 [1] (up .idle), .manager, _, _, ⟨rfl, rfl, rfl, rfl, by decide +kernel⟩, by decide +kernel⟩,
   ⟨turn 0x0110 [0x100_0000_0000] (up .idle), .manager, _, _, ⟨rfl, rfl, rfl, rfl, by decide +kernel⟩, by decide +kernel⟩,
   ⟨turn 0x0111 [0x100_0000_0000, 5] (up .idle), .manager, PinEnv.none, _, _, ⟨rfl, rfl, rfl, rfl, by decide +kernel⟩, by decide +kernel⟩,
   ⟨on { up .idle with host.order := [{ cmd 0x0111 [0x40_0000_0000, 5] with seat := .debug }] }, .debug, PinEnv.none, _, _, ⟨rfl, rfl, rfl, rfl, by decide +kernel⟩, by decide +kernel⟩,
   ⟨turn 0x0902 [2] { up .idle with clk.wakeEn := 0 }, .manager, _, _, ⟨rfl, rfl, rfl, rfl, by decide +kernel⟩, by decide +kernel⟩,
   ⟨on { up .running with host.longKind := 5, host.longCmd := some (cmd 0x0310 [1, 0, 0]), host.dumpAbort := true }, _, by decide +kernel, rfl, by decide +kernel⟩,
   ⟨turn 0x0A02 [1] (up .running), .manager, _, _, ⟨rfl, rfl, rfl, rfl, by decide +kernel⟩, by decide +kernel⟩⟩

theorem witness_ServiceNetwork :
    (∃ s : State, ∃ p : Packet, ∃ env : PinEnv, p.kind = 4 ∧ (
      let q := formPacket p s.dev
      mustWait s.dev q = false)) ∧
    (∃ s : State, ∃ p : Packet, ∃ env : PinEnv, (p.kind ≤ 2 ∨ p.kind = 4) ∧ mustWait s.dev (formPacket p s.dev) = true) ∧
    (∃ s : State, ∃ p : Packet, ∃ env : PinEnv, ∃ m : Master, ∃ d : Dev, ∃ d' : Dev, p.kind ≤ 2 ∧ (
      let q := formPacket p s.dev
      (
      let a := askAt (q.kind ≠ 0) q.addr
      mustWait s.dev q = false ∧ classMaster q.cls = some m ∧ judge m (q.kind ≠ 0) a s.dev = (0, d) ∧ travel q a.decoded a.domain d = (0, d')))) ∧
    (∃ s : State, ∃ node : Nat, ∃ tag : Nat, ∃ p : Packet, nocOn s.dev.clk = true ∧ (s.dev.sn.owed.find? fun p => p.dst = node && p.tag = tag) = some p ∧ arrives s.dev.sn node p.src p.epoch = true ∧ NothingWaits s.dev ∧ domainState s.dev (nodeDomain p.src) ≠ 2) ∧
    (∃ s : State, ∃ node : Nat, ∃ tag : Nat, ∃ p : Packet, nocOn s.dev.clk = true ∧ (s.dev.sn.owed.find? fun p => p.dst = node && p.tag = tag) = none ∧ (s.dev.sn.late.find? fun p => p.dst = node && p.tag = tag) = some p) ∧
    (∃ s : State, ∃ node : Nat, ∃ tag : Nat, ∃ p : Packet, nocOn s.dev.clk = true ∧ (s.dev.sn.owed.find? fun p => p.dst = node && p.tag = tag) = some p ∧ arrives s.dev.sn node p.src p.epoch = false) ∧
    (∃ s : State, ∃ node : Fin 2048, (s.dev.sn.owed.filter fun p => p.dst = node.val) ≠ [] ∧ NothingWaits s.dev) ∧
    (∃ s : State, ∃ node : Fin 2048, (s.dev.sn.owed.filter fun p => p.dst = node.val) = []) ∧
    (∃ s : State, ∃ w : Fin 32, ∃ v : W64, ∃ d : Dev, Passes (.seat .manager) (aSn (0x100 + 8 * w)) s d) ∧
    (∃ s : State, ∃ node : Fin 2048, node.val ∈ s.dev.sn.revive) ∧
    (∃ s : State, ∃ dom : Fin 16, domainState s.dev dom = 1 ∧ domainQuiet s.dev dom = true ∧ s.dev.clk.hbmcStopping = false) ∧
    (∃ s : State, ∃ dom : Fin 16, domainState s.dev dom = 3 ∧ NothingWaits s.dev ∧ downAgain s.dev dom = false) ∧
    (∃ s : State, ∃ v : W64, ∃ d : Dev, Passes (.seat .manager) (aSn 0x10) s d ∧ d.sn.draining = false ∧ d.sn.bank ≠ d.sn.current) ∧
    (∃ s : State, ∃ v : W64, ∃ d : Dev, Passes (.seat .manager) (aSn 0x10) s d ∧ (d.sn.draining = true ∨ d.sn.bank = d.sn.current)) ∧
    (∃ s : State, ∃ v : W64, ∃ d : Dev, Passes (.seat .manager) (aSn 0) s d ∧ bit v 4 = false ∧ bit v 0 = true) ∧
    (∃ s : State, s.dev.sn.draining = true ∧ (s.dev.sn.owed.all fun p => p.epoch = s.dev.sn.current) = true ∧ (s.dev.events.all fun e => e.sent ≠ some (!s.dev.sn.current)) = true ∧ NothingWaits s.dev) ∧
    (∃ s : State, (s.dev.sn.draining = false ∨ (s.dev.sn.owed.any fun p => p.epoch ≠ s.dev.sn.current) = true ∨ (s.dev.events.any fun e => e.sent = some (!s.dev.sn.current)) = true)) ∧
    (∃ s : State, ∃ p : Packet, ∃ env : PinEnv, ∃ m : Master, ∃ d : Dev, ∃ d' : Dev, ∃ n : Nat, p.kind ≤ 2 ∧ (
      let q := formPacket p s.dev
      (
      let a := askAt (q.kind ≠ 0) q.addr
      mustWait s.dev q = false ∧ classMaster q.cls = some m ∧ judge m (q.kind ≠ 0) a s.dev = (0, d) ∧ travel q a.decoded a.domain d = (n, d') ∧ n ≠ 0))) ∧
    (∃ p : Packet, ∃ decoded : Bool, ∃ dom : Nat, ∃ d : Dev, 
      let n := (travel p decoded dom d).1
      n = 0) ∧
    (∃ p : Packet, ∃ decoded : Bool, ∃ dom : Nat, ∃ d : Dev, decoded = false) ∧
    (∃ p : Packet, ∃ decoded : Bool, ∃ dom : Nat, ∃ d : Dev, 
      let path := routePath d.sn p.src p.dst p.epoch
      ∃ e, decoded = true ∧ edgeOff d p.src path = some e) ∧
    (∃ p : Packet, ∃ decoded : Bool, ∃ dom : Nat, ∃ d : Dev, 
      let path := routePath d.sn p.src p.dst p.epoch
      decoded = true ∧ edgeOff d p.src path = none ∧ arrives d.sn p.src p.dst p.epoch = false) ∧
    (∃ p : Packet, ∃ decoded : Bool, ∃ dom : Nat, ∃ d : Dev, 
      let path := routePath d.sn p.src p.dst p.epoch
      decoded = true ∧ edgeOff d p.src path = none ∧ arrives d.sn p.src p.dst p.epoch = true ∧ nodeDomain p.src ≠ dom ∧ domainOn d dom = false) ∧
    (∃ p : Packet, ∃ decoded : Bool, ∃ dom : Nat, ∃ d : Dev, 
      let path := routePath d.sn p.src p.dst p.epoch
      decoded = true ∧ edgeOff d p.src path = none ∧ arrives d.sn p.src p.dst p.epoch = true ∧ (nodeDomain p.src = dom ∨ domainOn d dom = true) ∧ isDead d p.dst = true) ∧
    (∃ s : State, ∃ m : Master, ∃ write : Bool, ∃ a : Ask, ∃ d : Dev, judge m write a s.dev = (0, d) ∧ accessWaits m write a d = true) ∧
    (∃ s : State, ∃ dom : Fin 16, domainState s.dev dom = 3 ∧ NothingWaits s.dev ∧ downAgain s.dev dom = true) :=
  ⟨⟨on (up .idle), ⟨4, 0, false, 0x407, 0x404, 0, 0, 0, 0, 0, 0, [0x1012]⟩, PinEnv.none, by decide +kernel⟩,
   ⟨on { up .idle with sn.domains := [(12, 2)] }, packet, PinEnv.none, by decide +kernel⟩,
   ⟨on (up .idle), packet, PinEnv.none, .core, _, _, by decide +kernel, by decide +kernel, by decide +kernel, pair_mk (by decide +kernel), pair_mk (by decide +kernel)⟩,
   ⟨on { up .idle with sn.owed := [packet] }, 0x40A, 5, packet, by decide +kernel⟩,
   ⟨on { up .idle with sn.late := [packet] }, 0x40A, 5, packet, by decide +kernel⟩,
   ⟨on { up .idle with sn.owed := [packet], sn.routes := [((1034 * 2048 + 1025) * 2, 4)] }, 0x40A, 5, packet, by decide +kernel⟩,
   ⟨on { up .idle with sn.owed := [packet] }, 0x40A, by decide +kernel⟩,
   ⟨on (up .idle), 2047, by decide +kernel⟩,
   ⟨on { up .idle with sn.dead := [(31, 1)] }, 31, 1, _, passes_mk (by decide +kernel)⟩,
   ⟨on { up .idle with sn.revive := [2047] }, 2047, by decide +kernel⟩,
   ⟨on { up .idle with sn.domains := [(14, 5)] }, 14, by decide +kernel⟩,
   ⟨on { up .idle with sn.domains := [(14, 3)] }, 14, by decide +kernel⟩,
   ⟨on { up .idle with sn.bank := true }, 5, _, passes_mk (by decide +kernel), by decide +kernel⟩,
   ⟨on (up .idle), 5, _, passes_mk (by decide +kernel), by decide +kernel⟩,
   ⟨on (up .idle), 1, _, passes_mk (by decide +kernel), by decide +kernel⟩,
   ⟨on { up .idle with sn.draining := true }, by decide +kernel⟩,
   ⟨on (up .idle), by decide +kernel⟩,
   ⟨on { up .idle with sn.dead := [(16, 0x400)] }, { packet with kind := 2 }, PinEnv.none, .core, _, _, _, by decide +kernel, by decide +kernel, by decide +kernel, pair_mk (by decide +kernel), eta_mk _, by decide +kernel⟩,
   ⟨packet, true, 14, up .idle, by decide +kernel⟩,
   ⟨packet, false, 14, up .idle, by decide +kernel⟩,
   ⟨packet, true, 14, { up .idle with sn.domains := [(14, 1)] }, 14, by decide +kernel⟩,
   ⟨packet, true, 14, { up .idle with sn.routes := [((1025 * 2048 + 1034) * 2, 4)] }, by decide +kernel⟩,
   ⟨{ packet with dst := 0 }, true, 4, { up .idle with sn.domains := [(4, 1)] }, by decide +kernel⟩,
   ⟨packet, true, 14, { up .idle with sn.dead := [(16, 0x400)] }, by decide +kernel⟩,
   ⟨on { up .idle with sn.draining := true, sn.affect := [(16, 0x400)] }, .core, false, askAt false 0x60_0007_0000, _, pair_mk (by decide +kernel), by decide +kernel⟩,
   ⟨on { up .idle with sn.domains := [(4, 3)], clk.hbmcStopping := true }, 4, by decide +kernel⟩⟩

theorem witness_InterruptController :
    (∃ s : State, ∃ src : Fin 2048, ∃ e : Event, (s.dev.events.find? fun x => x.source = src.val && x.sent.isSome) = some e ∧ (s.dev.events.find? fun x => x.node = e.node && x.sent.isSome) = some e ∧ nocOn s.dev.clk = true ∧ isDead s.dev irqNode = false ∧ domainOn s.dev 14 = true ∧ arrives s.dev.sn e.node irqNode (e.sent.getD false) = true ∧ edgeOff s.dev e.node (routePath s.dev.sn e.node irqNode (e.sent.getD false)) = none ∧ (pulseSource src || lineSource src) = true ∧ e.pulse = true) ∧
    (∃ s : State, ∃ src : Fin 2048, ∃ e : Event, (s.dev.events.find? fun x => x.source = src.val && x.sent.isSome) = some e ∧ (s.dev.events.find? fun x => x.node = e.node && x.sent.isSome) = some e ∧ nocOn s.dev.clk = true ∧ isDead s.dev irqNode = false ∧ domainOn s.dev 14 = true ∧ arrives s.dev.sn e.node irqNode (e.sent.getD false) = true ∧ edgeOff s.dev e.node (routePath s.dev.sn e.node irqNode (e.sent.getD false)) = none ∧ (pulseSource src || lineSource src) = true ∧ e.pulse = false ∧ e.level = true) ∧
    (∃ s : State, ∃ src : Fin 2048, (s.dev.events.find? fun x => x.source = src.val && x.sent.isSome) = none) ∧
    (∃ s : State, ∃ src : Fin 2048, nocOn s.dev.clk = false) ∧
    (∃ s : State, ∃ m : Master, ∃ n : Fin 20, ∃ d : Dev, ∃ d' : Dev, ∃ i : Irq, Arrives m false (aIrq (0x108 + 32 * n)) s d ∧ flushNode (masterNode d m) s.irq d = (i, d') ∧ (
      let q := selectedOf i n
      q ≠ 0 ∧ candidate i n q = true)) ∧
    (∃ s : State, ∃ m : Master, ∃ n : Fin 20, ∃ d : Dev, ∃ d' : Dev, ∃ i : Irq, Arrives m false (aIrq (0x108 + 32 * n)) s d ∧ flushNode (masterNode d m) s.irq d = (i, d') ∧ (selectedOf i n = 0 ∨ candidate i n (selectedOf i n) = false)) ∧
    (∃ s : State, ∃ m : Master, ∃ n : Fin 20, ∃ v : W64, ∃ d : Dev, ∃ d' : Dev, ∃ i : Irq, ∃ c : Claim, ∃ r : List Claim, Passes m (aIrq (0x110 + 32 * n)) s d ∧ flushNode (masterNode d m) s.irq d = (i, d') ∧ (irqWriter m = true ∨ ownVector m n = true) ∧ claimsOf i n = c :: r ∧ c.source = fld v 10 0) ∧
    (∃ s : State, ∃ m : Master, ∃ n : Fin 20, ∃ v : W64, ∃ d : Dev, ∃ d' : Dev, ∃ i : Irq, ∃ c : Claim, ∃ r : List Claim, Passes m (aIrq (0x110 + 32 * n)) s d ∧ flushNode (masterNode d m) s.irq d = (i, d') ∧ (irqWriter m = true ∨ ownVector m n = true) ∧ claimsOf i n = c :: r ∧ c.source ≠ fld v 10 0) ∧
    (∃ s : State, ∃ m : Master, ∃ w : Fin 32, ∃ v : W64, ∃ d : Dev, ∃ d' : Dev, ∃ i : Irq, Passes m (aIrq (0x1100 + 8 * w)) s d ∧ flushNode (masterNode d m) s.irq d = (i, d') ∧ irqWriter m = true) ∧
    (∃ s : State, ∃ m : Master, ∃ w : Fin 32, ∃ v : W64, ∃ d : Dev, ∃ d' : Dev, ∃ i : Irq, Passes m (aIrq (0x1000 + 8 * w)) s d ∧ flushNode (masterNode d m) s.irq d = (i, d') ∧ (irqWriter m = true ∨ m = .seat .board)) ∧
    (∃ s : State, ∃ v : Fin 16, nocOn s.dev.clk = true ∧ msixDue s.irq v = true ∧ msixHeld s.dev v = false) ∧
    (∃ s : State, ∃ v : Fin 16, (nocOn s.dev.clk = false ∨ msixDue s.irq v = false ∨ msixHeld s.dev v = true)) ∧
    (∃ s : State, ∃ a : Event, ∃ b : Event, ∃ rest : List Event, s.dev.events = a :: b :: rest ∧ a.node = b.node ∧ a.source ≠ b.source ∧ a.sent.isSome = true ∧ b.sent.isSome = true ∧ lineSource a.source = true ∧ lineSource b.source = true ∧ a.pulse = false ∧ b.pulse = false ∧ isDead s.dev irqNode = false ∧ domainOn s.dev 14 = true ∧ nocOn s.dev.clk = true ∧ (∀ e, arrives s.dev.sn a.node irqNode e = true ∧ edgeOff s.dev a.node (routePath s.dev.sn a.node irqNode e) = none)) ∧
    (∃ s : State, ∃ src : Fin 2048, ∃ e : Event, (s.dev.events.find? fun x => x.source = src.val && x.sent.isSome) = some e ∧ (s.dev.events.find? fun x => x.node = e.node && x.sent.isSome) = some e ∧ isDead s.dev irqNode = true ∧ domainOn s.dev 14 = true ∧ nocOn s.dev.clk = true ∧ arrives s.dev.sn e.node irqNode (e.sent.getD false) = true ∧ edgeOff s.dev e.node (routePath s.dev.sn e.node irqNode (e.sent.getD false)) = none) :=
  ⟨⟨on { up .idle with events := [⟨0x012, true, true, 1024, 0x40A, some false⟩] }, 0x012, _, rfl, rfl, by decide +kernel⟩,
   ⟨on { up .idle with events := [⟨0x60F, false, true, 1024, 0x383, some false⟩] }, 0x60F, _, rfl, rfl, by decide +kernel⟩,
   ⟨on (up .idle), 2047, by decide +kernel⟩,
   ⟨on { up .idle with clk.pw := 3, clk.gate := 0, events := [⟨0x012, true, true, 1024, 0x40A, some false⟩] }, 0x012, by decide +kernel⟩,
   ⟨irqOn { Irq.reset with cfg := [(1, 0x8000_0000_0000_1F0F)], line := [(0, 2)], selected := [(0, 1)] } (up .idle), .core, 0, _, _, _, arrives_mk (by decide +kernel), eta_mk _, by decide +kernel⟩,
   ⟨on (up .idle), .core, 19, _, _, _, arrives_mk (by decide +kernel), eta_mk _, by decide +kernel⟩,
   ⟨irqOn { Irq.reset with claims := [(19, [⟨1, 15⟩])] } (up .idle), .core, 19, 1, _, _, _, _, _, passes_mk (by decide +kernel), eta_mk _, by decide +kernel, rfl, by decide +kernel⟩,
   ⟨irqOn { Irq.reset with claims := [(19, [⟨1, 15⟩])] } (up .idle), .core, 19, 2, _, _, _, _, _, passes_mk (by decide +kernel), eta_mk _, by decide +kernel, rfl, by decide +kernel⟩,
   ⟨on (up .idle), .core, 31, 5, _, _, _, passes_mk (by decide +kernel), eta_mk _, by decide +kernel⟩,
   ⟨on (up .idle), .seat .board, 0, 5, _, _, _, passes_mk (by decide +kernel), eta_mk _, by decide +kernel⟩,
   ⟨irqOn { Irq.reset with selected := [(19, 1)] } { up .idle with host.diag.session := true }, 15, by decide +kernel⟩,
   ⟨on (up .idle), 0, by decide +kernel⟩,
   ⟨on { up .idle with events := [⟨0x012 + 2, false, true, 1024, 0x40A, some false⟩, ⟨0x015, false, true, 1024, 0x40A, some true⟩] }, _, _, [], rfl, rfl, by decide +kernel⟩,
   ⟨on { up .idle with sn.dead := [(16, 0x10)], events := [⟨0x012, true, true, 1024, 0x40A, some false⟩] }, 0x012, _, rfl, rfl, by decide +kernel⟩⟩

theorem witness_TraceFunnel :
    (∃ s : State, ∃ x : Seat, ∃ v : W64, ∃ d : Dev, Passes (.seat x) (aTrace 0) s d ∧ (x = .manager ∨ x = .debug) ∧ bit v 1 = false ∧ d.trc.flushing = false ∧ d.trc.active = false ∧ enableRefused d = false) ∧
    (∃ s : State, ∃ x : Seat, ∃ v : W64, ∃ d : Dev, Passes (.seat x) (aTrace 0) s d ∧ (x = .manager ∨ x = .debug) ∧ bit v 1 = false ∧ d.trc.flushing = false ∧ d.trc.active = false ∧ enableRefused d = true) ∧
    (∃ s : State, ∃ x : Seat, ∃ v : W64, ∃ d : Dev, Passes (.seat x) (aTrace 0) s d ∧ (x = .manager ∨ x = .debug) ∧ bit v 1 = false ∧ d.trc.flushing = false ∧ d.trc.active = true ∧ d.trc.waiting ≠ []) ∧
    (∃ s : State, nocOn s.dev.clk = true ∧ s.dev.trc.flushing = true ∧ s.dev.trc.waiting = [] ∧ s.dev.trc.page = none ∧ s.dev.trc.done = [] ∧ s.dev.trc.restart = false) ∧
    (∃ s : State, ∃ x : Seat, ∃ d : Dev, ∃ ws : List W64, Passes (.seat x) (aTrace 0) s d ∧ (x = .manager ∨ x = .debug) ∧ d.trc.flushing = false ∧ d.trc.active = true ∧ d.trc.enable = true ∧ d.trc.page = some ws) ∧
    (∃ s : State, ∃ ws : List W64, nocOn s.dev.clk = true ∧ s.dev.trc.page = some ws) ∧
    (∃ s : State, ∃ src : Byte, ∃ p : TrcPkt, ∃ ws : List W64, 4 ≤ src.toNat ∧ nocOn s.dev.clk = true ∧ (s.dev.trc.waiting.find? fun p => p.src = src.toNat) = some p ∧ s.dev.trc.full = false ∧ tget 0 s.dev.trc.lost src.toNat = 0 ∧ s.dev.trc.page = some ws ∧ s.dev.trc.flushing = false ∧ ws.length + p.words.length + 1 < 512 ∧ nextSource s.dev.trc = some src.toNat) ∧
    (∃ s : State, ∃ ws : List W64, ∃ rest : List (List W64), ∃ base : Nat, ∃ size : Nat, nocOn s.dev.clk = true ∧ s.dev.trc.done = ws :: rest ∧ s.dev.trc.output = 1 ∧ s.dev.trc.stop = false ∧ hbmRegion? s.dev 5 = some (base, size) ∧ (
      let a := base + 4096 * (s.dev.trc.pages % (size / 4096))
      (
      let die := hbmDie a
      blockedTo s.dev (die * 256) = true))) ∧
    (∃ s : State, ∃ ws : List W64, ∃ rest : List (List W64), ∃ base : Nat, ∃ size : Nat, nocOn s.dev.clk = true ∧ s.dev.trc.done = ws :: rest ∧ s.dev.trc.output = 1 ∧ s.dev.trc.stop = false ∧ hbmRegion? s.dev 5 = some (base, size) ∧ (
      let a := base + 4096 * (s.dev.trc.pages % (size / 4096))
      (
      let die := hbmDie a
      blockedTo s.dev (die * 256) = false ∧ arrives s.dev.sn 0x405 (die * 256) s.dev.sn.current = true ∧ ws.length = 512 ∧ a % 0x20_0000 + 4096 ≤ 0x20_0000))) ∧
    (∃ s : State, ∃ x : Seat, ∃ v : W64, ∃ d : Dev, Passes (.seat x) (aTrace 0x38) s d ∧ (x = .manager ∨ x = .debug)) ∧
    (∃ s : State, ∃ core : Fin 4, ∃ a : W64, coreState s.dev.trc core = 0 ∧ s.dev.trc.active = false) ∧
    (∃ s : State, ∃ core : Fin 4, ∃ a : W64, coreState s.dev.trc core = 0 ∧ s.dev.trc.active = true ∧ s.dev.trc.enable = true ∧ bit s.dev.trc.srcEn core = true ∧ tget false s.dev.trc.overflow core = false) ∧
    (∃ s : State, ∃ core : Fin 4, selectedOf s.irq core ≠ 0 ∧ coreState s.dev.trc core = 1) ∧
    (∃ s : State, ∃ core : Fin 4, selectedOf s.irq core ≠ 0 ∧ coreState s.dev.trc core = 2 ∧ s.dev.trc.active = false) ∧
    (∃ s : State, ∃ src : Byte, (nextSource s.dev.trc ≠ some src.toNat ∨ nocOn s.dev.clk = false)) ∧
    (∃ s : State, ∃ src : Byte, ∃ p : TrcPkt, (src.toNat = 0x10 ∨ src.toNat = 0x11) ∧ nextSource s.dev.trc = some src.toNat ∧ nocOn s.dev.clk = true ∧ (s.dev.trc.waiting.find? fun p => p.src = src.toNat) = some p ∧ s.dev.trc.full = false ∧ s.dev.trc.page = none ∧ 16 ≤ s.dev.trc.done.length) ∧
    (∃ s : State, ∃ src : Byte, ∃ p : TrcPkt, 4 ≤ src.toNat ∧ nextSource s.dev.trc = some src.toNat ∧ nocOn s.dev.clk = true ∧ (s.dev.trc.waiting.find? fun p => p.src = src.toNat) = some p ∧ s.dev.trc.full = false ∧ tget 0 s.dev.trc.lost src.toNat = 0 ∧ s.dev.trc.page = none ∧ s.dev.trc.done.length < 16 ∧ s.dev.trc.flushing = false ∧ p.words.length < 16) ∧
    (∃ tsc : Nat, ∃ core : Nat, ∃ t : Trace, t.enable = true ∧ bit t.srcEn core = true ∧ unitWords t core + 2 ≤ 128 ∧ tget [] t.atoms core ≠ []) ∧
    (∃ d : Dev, ∃ core : Fin 4, ∃ taken : Bool, traceOn core d = true ∧ tget false d.trc.overflow core = false ∧ (
      let l := tget [] d.trc.atoms core
      l.length < 57)) ∧
    (∃ d : Dev, ∃ core : Fin 4, ∃ taken : Bool, traceOn core d = true ∧ tget false d.trc.overflow core = false ∧ (
      let l := tget [] d.trc.atoms core
      l.length = 57 ∧ d.trc.full = false ∧ unitRoom core 2 d = true)) ∧
    (∃ d : Dev, ∃ core : Fin 4, ∃ taken : Bool, traceOn core d = true ∧ tget false d.trc.overflow core = false ∧ (
      let l := tget [] d.trc.atoms core
      l.length = 57 ∧ d.trc.full = false ∧ unitRoom core 2 d = false)) ∧
    (∃ d : Dev, ∃ core : Fin 4, traceOn core d = true ∧ tget false d.trc.overflow core = true ∧ unitRoom core 3 d = true) ∧
    (∃ d : Dev, ∃ src : Nat, ∃ kind : Nat, ∃ ws : List W64, (src = 0x10 ∨ src = 0x11) ∧ traceOn src d = true ∧ funnelFull (ws.length + 1) d = true) ∧
    (∃ s : State, ∃ ws : List W64, ∃ rest : List (List W64), nocOn s.dev.clk = true ∧ s.dev.trc.done = ws :: rest ∧ s.dev.trc.output = 2 ∧ outWait s.dev = true) ∧
    (∃ s : State, ∃ ws : List W64, ∃ rest : List (List W64), nocOn s.dev.clk = true ∧ s.dev.trc.done = ws :: rest ∧ s.dev.trc.output = 2 ∧ outWait s.dev = false) ∧
    (∃ s : State, (s.dev.trc.done = [] ∨ nocOn s.dev.clk = false)) ∧
    (∃ s : State, ∃ ws : List W64, ∃ rest : List (List W64), ∃ base : Nat, ∃ size : Nat, nocOn s.dev.clk = true ∧ s.dev.trc.done = ws :: rest ∧ s.dev.trc.output = 1 ∧ hbmRegion? s.dev 5 = some (base, size) ∧ s.dev.trc.stop = true ∧ size / 4096 ≤ s.dev.trc.pages + 1 ∧ blockedTo s.dev (hbmDie (base + 4096 * (s.dev.trc.pages % (size / 4096))) * 256) = false) ∧
    (∃ s : State, ∃ core : Fin 4, ∃ p : TrcPkt, ∃ ws : List W64, nocOn s.dev.clk = true ∧ nextSource s.dev.trc = some core.val ∧ (s.dev.trc.waiting.find? fun p => p.src = core.val) = some p ∧ s.dev.trc.full = false ∧ tget 0 s.dev.trc.lost core = 0 ∧ tget 0 s.dev.trc.needSync core = 0 ∧ tget false s.dev.trc.overflow core = false ∧ s.dev.trc.flushing = false ∧ s.dev.trc.page = some ws ∧ ws.length + p.words.length + 1 < 512) ∧
    (∃ s : State, ∃ src : Byte, ∃ p : TrcPkt, nocOn s.dev.clk = true ∧ 4 ≤ src.toNat ∧ nextSource s.dev.trc = some src.toNat ∧ (s.dev.trc.waiting.find? fun p => p.src = src.toNat) = some p ∧ s.dev.trc.full = true ∧ s.dev.trc.flushing = false) ∧
    (∃ s : State, ∃ src : Byte, (src.toNat < 4 ∨ src.toNat = 0x20) ∧ s.dev.trc.full = false ∧ s.dev.trc.page = none ∧ 16 ≤ s.dev.trc.done.length) ∧
    (∃ s : State, ∃ core : Fin 4, ∃ p : TrcPkt, nocOn s.dev.clk = true ∧ nextSource s.dev.trc = some core.val ∧ (s.dev.trc.waiting.find? fun p => p.src = core.val) = some p ∧ p.kind ≠ 3 ∧ s.dev.trc.full = false ∧ tget 0 s.dev.trc.lost core = 0 ∧ bit s.dev.trc.srcEn core = true ∧ s.dev.trc.flushing = false ∧ s.dev.trc.page = none ∧ s.dev.trc.done.length < 16 ∧ p.words.length < 16) ∧
    (∃ s : State, nocOn s.dev.clk = false) :=
  ⟨⟨on (hbm 5 0 0x20_0000 { up .idle with trc.output := 1 }), .debug, 1, _, passes_mk (by decide +kernel), by decide +kernel⟩,
   ⟨on (up .idle), .manager, 1, _, passes_mk (by decide +kernel), by decide +kernel⟩,
   ⟨on { up .running with trc.active := true, trc.waiting := [⟨0x10, 1, [], 0⟩] }, .manager, 0, _, passes_mk (by decide +kernel), by decide +kernel⟩,
   ⟨on { up .running with trc.flushing := true }, by decide +kernel⟩,
   ⟨on { up .running with trc.active := true, trc.enable := true, trc.page := some [] }, .manager, _, _, passes_mk (by decide +kernel), by decide +kernel, by decide +kernel, by decide +kernel, by decide +kernel, rfl⟩,
   ⟨on { up .running with trc.active := true, trc.page := some [] }, _, by decide +kernel, rfl⟩,
   ⟨on { up .running with trc.active := true, trc.page := some [], trc.waiting := [⟨0x10, 1, [], 0⟩] }, 0x10, _, _, by decide +kernel, by decide +kernel, rfl, by decide +kernel, by decide +kernel, rfl, by decide +kernel⟩,
   ⟨on (hbm 5 0 0x20_0000 { up .running with trc.output := 1, trc.done := [[]], sn.draining := true, sn.affect := [(0, 1)] }), _, _, 0, 0x20_0000, by decide +kernel, rfl, by decide +kernel⟩,
   ⟨on (hbm 5 0 0x20_0000 { up .running with trc.output := 1, trc.done := [List.replicate 512 0] }), _, _, 0, 0x20_0000, by decide +kernel, rfl, by decide +kernel⟩,
   ⟨on (up .idle), .debug, 5, _, passes_mk (by decide +kernel), by decide +kernel⟩,
   ⟨on (up .idle), 3, 0x100, by decide +kernel⟩,
   ⟨on { up .idle with trc.active := true, trc.enable := true, trc.srcEn := 8 }, 3, 0x100, by decide +kernel⟩,
   ⟨irqOn { Irq.reset with selected := [(3, 1)] } { up .idle with trc.cores := [(3, 1)] }, 3, by decide +kernel⟩,
   ⟨irqOn { Irq.reset with selected := [(3, 1)] } { up .idle with trc.cores := [(3, 2)] }, 3, by decide +kernel⟩,
   ⟨on (up .idle), 0x10, by decide +kernel⟩,
   ⟨on { up .running with trc.active := true, trc.done := List.replicate 16 [], trc.waiting := [⟨0x10, 1, [], 0⟩] }, 0x10, _, by decide +kernel, by decide +kernel, by decide +kernel, rfl, by decide +kernel⟩,
   ⟨on { up .running with trc.active := true, trc.waiting := [⟨0x37, 1, [], 0⟩] }, 0x37, _, by decide +kernel, by decide +kernel, by decide +kernel, rfl, by decide +kernel⟩,
   ⟨0, 3, { Dev.reset.trc with enable := true, srcEn := 8, atoms := [(3, [true])] }, by decide +kernel⟩,
   ⟨{ up .running with trc.active := true, trc.enable := true, trc.srcEn := 8 }, 3, true, by decide +kernel⟩,
   ⟨{ up .running with trc.active := true, trc.enable := true, trc.srcEn := 8, trc.atoms := [(3, List.replicate 57 true)] }, 3, true, by decide +kernel⟩,
   ⟨{ up .running with trc.active := true, trc.enable := true, trc.srcEn := 8, trc.atoms := [(3, List.replicate 57 true)], trc.waiting := List.replicate 64 ⟨3, 1, [0], 0⟩ }, 3, true, by decide +kernel⟩,
   ⟨{ up .running with trc.active := true, trc.enable := true, trc.srcEn := 8, trc.overflow := [(3, true)] }, 3, by decide +kernel⟩,
   ⟨{ up .running with trc.active := true, trc.enable := true, trc.srcEn := 0x300, trc.done := List.replicate 16 [] }, 0x11, 8, [0], by decide +kernel⟩,
   ⟨on { up .running with trc.output := 2, trc.done := [[5]], trc.active := true }, _, _, by decide +kernel, rfl, by decide +kernel⟩,
   ⟨on { up .running with trc.output := 2, trc.done := [[5]], trc.hostPages := 4, trc.active := true, host.manager.session := true, host.manager.busMaster := true }, _, _, by decide +kernel, rfl, by decide +kernel⟩,
   ⟨on (up .running), by decide +kernel⟩,
   ⟨on (hbm 5 0 0x20_0000 { up .running with trc.output := 1, trc.stop := true, trc.pages := 511, trc.done := [List.replicate 512 0] }), _, _, 0, 0x20_0000, by decide +kernel, rfl, by decide +kernel⟩,
   ⟨on { up .running with trc.active := true, trc.page := some [], trc.waiting := [⟨3, 4, [7], 0⟩], trc.cores := [(3, 1)] }, 3, _, _, by decide +kernel, by decide +kernel, rfl, by decide +kernel, by decide +kernel, by decide +kernel, by decide +kernel, by decide +kernel, rfl, by decide +kernel⟩,
   ⟨on { up .running with trc.active := true, trc.full := true, trc.waiting := [⟨0x10, 1, [], 0⟩] }, 0x10, _, by decide +kernel, by decide +kernel, by decide +kernel, rfl, by decide +kernel⟩,
   ⟨on { up .running with trc.active := true, trc.done := List.replicate 16 [], trc.waiting := [⟨0x20, 1, [], 0⟩] }, 0x20, by decide +kernel⟩,
   ⟨on { up .idle with trc.srcEn := 1, trc.waiting := [⟨0, 1, [5], 9⟩] }, 0, ⟨0, 1, [5], 9⟩, by decide +kernel⟩,
   ⟨on { up .idle with clk.frozen := true }, by decide +kernel⟩⟩

theorem witness_ClocksAndStartup :
    (∃ s : State, s.dev.clk.source = false) ∧
    (∃ s : State, s.dev.clk.source = true ∧ s.dev.clk.ioscReady = true) ∧
    (∃ s : State, s.dev.clk.source = true ∧ s.dev.clk.ioscReady = false) ∧
    (∃ s : State, s.dev.clk.failBarrier = true ∧ s.dev.run.st = .stopping ∧ s.dev.run.draining = false) ∧
    (∃ s : State, s.dev.clk.failBarrier = false) ∧
    (∃ s : State, s.dev.clk.frozen = false) ∧
    (∃ s : State, s.dev.clk.frozen = true ∧ s.dev.clk.source = true ∧ s.dev.clk.failed = true) ∧
    (∃ s : State, ∃ x : Seat, ∃ d : Dev, Passes (.seat x) (aClocks 0) s d ∧ (x = .manager ∨ x = .board) ∧ d.clk.xtalOk = true ∧ d.clk.source = false) ∧
    (∃ s : State, ∃ x : Seat, ∃ d : Dev, Passes (.seat x) (aClocks 0) s d ∧ (x = .manager ∨ x = .board) ∧ d.clk.xtalOk = false) ∧
    (∃ s : State, s.dev.clk.pllRelocking = true) ∧
    (∃ s : State, ∃ ns : Nat, 1000 ≤ ns) ∧
    (∃ s : State, ∃ ns : Nat, ns < 1000) ∧
    (∃ s : State, ∃ d : Dev, Passes (.seat .manager) (aClocks 0x100) s d) ∧
    (∃ s : State, ∃ d : Dev, Passes (.seat .board) (aClocks 0x100) s d) ∧
    (∃ s : State, s.dev.clk.stFailed = false ∧ s.dev.clk.frozen = false ∧ s.dev.clk.stage < 5 ∧ s.dev.clk.stage ≠ 2) ∧
    (∃ s : State, ∃ b : Bool, s.dev.clk.stFailed = false ∧ s.dev.clk.frozen = false ∧ s.dev.clk.stage = 2 ∧ bootSlot s.dev = some b) ∧
    (∃ s : State, (s.dev.clk.stFailed = true ∨ 5 ≤ s.dev.clk.stage)) ∧
    (∃ s : State, ∃ okA : Bool, ∃ okB : Bool, ∃ g : BitVec 16, s.dev.clk.stFailed = false ∧ s.dev.clk.frozen = false ∧ s.dev.clk.stage = 0 ∧ s.dev.clk.source = false) ∧
    (∃ s : State, ∃ okA : Bool, ∃ okB : Bool, ∃ g : BitVec 16, ∃ b : Bool, s.dev.clk.stFailed = false ∧ s.dev.clk.frozen = false ∧ s.dev.clk.stage = 2 ∧ s.dev.clk.tryOther = false ∧ s.dev.run.st = .boot ∧ bootSlot s.dev = some b ∧ slotVerifies s.dev.keep b = true ∧ (if b then okB else okA) = true) ∧
    (∃ s : State, ∃ okA : Bool, ∃ okB : Bool, ∃ g : BitVec 16, s.dev.clk.stFailed = false ∧ s.dev.clk.frozen = false ∧ s.dev.clk.stage = 4) ∧
    (∃ s : State, ∃ detail : Nat, s.dev.clk.stFailed = false ∧ s.dev.clk.frozen = false ∧ s.dev.clk.stage < 5 ∧ (s.dev.clk.stage ≠ 2 ∨ bootSlot s.dev = none)) ∧
    (∃ s : State, ∃ g : Fin 16, 5 ≤ s.dev.clk.stage) ∧
    (∃ s : State, ∃ x : Seat, ∃ v : W64, ∃ d : Dev, Passes (.seat x) (aClocks 0x20) s d ∧ (x = .manager ∨ x = .board)) ∧
    (∃ s : State, s.dev.clk.frozen = true ∧ s.dev.clk.source = false) ∧
    (∃ s : State, ∃ okA : Bool, ∃ okB : Bool, ∃ g : BitVec 16, ∃ b : Bool, s.dev.clk.stFailed = false ∧ s.dev.clk.frozen = false ∧ s.dev.clk.stage = 2 ∧ bootSlot s.dev = some b ∧ (slotVerifies s.dev.keep b = false ∨ (if b then okB else okA) = false)) ∧
    (∃ s : State, ∃ okA : Bool, ∃ okB : Bool, ∃ g : BitVec 16, s.dev.clk.stFailed = false ∧ s.dev.clk.frozen = false ∧ s.dev.clk.stage = 2 ∧ s.dev.clk.pw = 2 ∧ s.dev.run.st = .boot ∧ slotVerifies s.dev.keep s.dev.clk.slot = true ∧ (if s.dev.clk.slot then okB else okA) = true) ∧
    (∃ s : State, ∃ okA : Bool, ∃ okB : Bool, ∃ g : BitVec 16, s.dev.clk.stFailed = false ∧ s.dev.clk.frozen = false ∧ s.dev.clk.stage = 2 ∧ bootSlot s.dev = none) ∧
    (∃ s : State, ∃ okA : Bool, ∃ okB : Bool, ∃ g : BitVec 16, s.dev.clk.stFailed = false ∧ s.dev.clk.frozen = false ∧ (s.dev.clk.stage = 1 ∨ s.dev.clk.stage = 3)) ∧
    (∃ s : State, ∃ r : StageResult, (s.dev.clk.stFailed = true ∨ 5 ≤ s.dev.clk.stage ∨ s.dev.clk.frozen = true)) :=
  ⟨⟨on (up .idle), by decide +kernel⟩,
   ⟨on { up .running with clk.source := true }, by decide +kernel⟩,
   ⟨on { up .running with clk.source := true, clk.ioscReady := false }, by decide +kernel⟩,
   ⟨on { up .stopping with clk.failBarrier := true }, by decide +kernel⟩,
   ⟨on (up .idle), by decide +kernel⟩,
   ⟨on (up .idle), by decide +kernel⟩,
   ⟨on { up .running with clk.frozen := true, clk.source := true, clk.failed := true }, by decide +kernel⟩,
   ⟨on { up .idle with clk.xtalOk := true }, .board, _, passes_mk (by decide +kernel), by decide +kernel⟩,
   ⟨on (up .idle), .manager, _, passes_mk (by decide +kernel), by decide +kernel⟩,
   ⟨on { up .idle with clk.pllRelocking := true }, by decide +kernel⟩,
   ⟨on (up .running), 1000, by decide +kernel⟩,
   ⟨on (up .running), 999, by decide +kernel⟩,
   ⟨on (up .idle), _, passes_mk (by decide +kernel)⟩,
   ⟨on (up .idle), _, passes_mk (by decide +kernel)⟩,
   ⟨on (up .boot |> fun d => { d with clk.stage := 4 }), by decide +kernel⟩,
   ⟨on { Dev.reset with clk.stage := 2 }, false, by decide +kernel⟩,
   ⟨on (up .idle), by decide +kernel⟩,
   ⟨on Dev.reset, true, true, 0xFFFF, by decide +kernel⟩,
   ⟨on { Dev.reset with clk.stage := 2 }, true, true, 0xFFFF, false, by decide +kernel⟩,
   ⟨on { up .idle with clk.stage := 4 }, true, true, 0xFFFF, by decide +kernel⟩,
   ⟨on { up .idle with clk.stage := 4 }, 1, by decide +kernel⟩,
   ⟨on (up .idle), 15, by decide +kernel⟩,
   ⟨on (up .idle), .board, 0xFFFF_FFFF_FFFF_FFFF, _, passes_mk (by decide +kernel), by decide +kernel⟩,
   ⟨on { up .running with clk.frozen := true, clk.source := false }, by decide +kernel⟩,
   ⟨on { Dev.reset with clk.stage := 2 }, false, true, 0, false, by decide +kernel⟩,
   ⟨on { Dev.reset with clk.stage := 2, clk.pw := 2 }, true, true, 0, by decide +kernel⟩,
   ⟨on { Dev.reset with clk.stage := 2, keep.stA := 0 }, true, true, 0, by decide +kernel⟩,
   ⟨on { up .boot with clk.stage := 1 }, true, true, 0, by decide +kernel⟩,
   ⟨on (up .idle), .failed 0, by decide +kernel⟩⟩

theorem witness_PowerStates :
    (∃ s : State, ∃ x : Seat, ∃ d : Dev, Passes (.seat x) (aClocks 0x100) s d ∧ (x = .manager ∨ x = .board) ∧ powerCode 1 d = 0) ∧
    (∃ s : State, ∃ x : Seat, ∃ d : Dev, Passes (.seat x) (aClocks 0x100) s d ∧ (x = .manager ∨ x = .board) ∧ powerCode 2 d = 0) ∧
    (∃ s : State, ∃ x : Seat, ∃ d : Dev, Passes (.seat x) (aClocks 0x100) s d ∧ (x = .manager ∨ x = .board) ∧ powerCode 1 d ≠ 0) ∧
    (∃ s : State, ∃ x : Seat, ∃ d : Dev, Passes (.seat x) (aClocks 0x100) s d ∧ (x = .manager ∨ x = .board) ∧ powerCode 2 d ≠ 0) ∧
    (∃ s : State, s.dev.clk.pwRequested = true) ∧
    (∃ s : State, s.dev.clk.pwRequested = false) ∧
    (∃ s : State, s.dev.clk.pw = 1 ∧ s.dev.clk.pwTarget = 1 ∧ (∀ m, m < 13 → domainState s.dev m = 2)) ∧
    (∃ s : State, s.dev.clk.pw = 1 ∧ s.dev.clk.pwTarget = 2 ∧ (∀ m, m < 15 → domainState s.dev m = 2)) ∧
    (∃ s : State, ∃ m : Nat, m < 13 ∧ domainState s.dev m ≠ 2) ∧
    (∃ s : State, ∃ w : WakeSource, s.dev.clk.wakeEn.getLsbD (wakeNo w) = false) ∧
    (∃ s : State, ∃ w : WakeSource, s.dev.clk.wakeEn.getLsbD (wakeNo w) = true ∧ s.dev.clk.pwRequested = false ∧ s.dev.clk.pw = 3) ∧
    (∃ s : State, ∃ w : WakeSource, s.dev.clk.wakeEn.getLsbD (wakeNo w) = true ∧ s.dev.clk.pwRequested = false ∧ s.dev.clk.pw = 4) ∧
    (∃ s : State, ∃ w : WakeSource, s.dev.clk.wakeEn.getLsbD (wakeNo w) = true ∧ s.dev.clk.pwRequested = false ∧ s.dev.clk.pw = 1) ∧
    (∃ s : State, ∃ ns : Nat, (ns < 1000 ∨ s.dev.clk.wakeEn.getLsbD 1 = false)) ∧
    (∃ s : State, ∃ ns : Nat, 1000 ≤ ns ∧ s.dev.clk.wakeEn.getLsbD 1 = true ∧ s.dev.clk.pwRequested = false ∧ s.dev.clk.pw = 3) ∧
    (∃ s : State, s.dev.clk.wakeEn.getLsbD 2 = true ∧ s.dev.clk.pwRequested = false ∧ s.dev.clk.pw = 3) ∧
    (∃ s : State, s.dev.clk.pw = 0) ∧
    (∃ s : State, s.dev.clk.pw = 2 ∧ (∀ m, m < 15 → domainState s.dev m = 0 ∨ gatedOff s.dev.clk m = true) ∧ (s.dev.clk.lastState ≠ 2 ∨ 5 ≤ s.dev.clk.stage)) ∧
    (∃ s : State, (s.dev.clk.pw ≠ 2 ∨ ∃ m, m < 15 ∧ domainState s.dev m ≠ 0 ∧ gatedOff s.dev.clk m = false)) ∧
    (∃ s : State, ∃ x : Seat, ∃ d : Dev, Passes (.seat x) (aClocks 0x10) s d ∧ (x = .manager ∨ x = .board) ∧ bit d.clk.gate 6 = true ∧ d.run.st = .idle ∧ hbmEntries d = []) ∧
    (∃ s : State, ∃ x : Seat, ∃ d : Dev, Passes (.seat x) (aClocks 0x10) s d ∧ (x = .manager ∨ x = .board) ∧ bit d.clk.gate 6 = false ∧ d.clk.hbmcStopping = false) ∧
    (∃ s : State, ∃ x : Seat, ∃ d : Dev, Passes (.seat x) (aClocks 0x10) s d ∧ (x = .manager ∨ x = .board) ∧ d.clk.hbmcStopping = true) ∧
    (∃ s : State, ∃ w : WakeSource, s.dev.clk.wakeEn.getLsbD (wakeNo w) = true ∧ s.dev.clk.pwRequested = true ∧ s.dev.clk.pw = 3 ∧ s.dev.host.held = []) ∧
    (∃ s : State, ∃ w : WakeSource, ∃ c : Cmd, s.dev.clk.wakeEn.getLsbD (wakeNo w) = true ∧ s.dev.clk.pwRequested = true ∧ s.dev.clk.pw = 0 ∧ s.dev.host.held = [c] ∧ c.opcode = 0x0902 ∧ c.relayed = false ∧ (seatOf s.dev.host c.seat).discard = false) :=
  ⟨⟨on (up .idle), .manager, _, passes_mk (by decide +kernel), by decide +kernel⟩,
   ⟨on (up .faulted), .board, _, passes_mk (by decide +kernel), by decide +kernel⟩,
   ⟨on (up .running), .manager, _, passes_mk (by decide +kernel), by decide +kernel⟩,
   ⟨on (up .running), .manager, _, passes_mk (by decide +kernel), by decide +kernel⟩,
   ⟨on { up .idle with clk.pwRequested := true, clk.pw := 3 }, by decide +kernel⟩,
   ⟨on (up .idle), by decide +kernel⟩,
   ⟨on { up .idle with clk.pw := 1, clk.pwTarget := 1, sn.domains := allOff }, by decide +kernel⟩,
   ⟨on { up .idle with clk.pw := 1, clk.pwTarget := 2, sn.domains := allOff }, by decide +kernel⟩,
   ⟨on { up .idle with clk.pw := 1, clk.pwTarget := 1 }, 12, by decide +kernel⟩,
   ⟨on (up .idle), .pcie, by decide +kernel⟩,
   ⟨on { up .idle with clk.pw := 3 }, .host, by decide +kernel⟩,
   ⟨on { up .idle with clk.pw := 4, clk.wakeEn := 2 }, .board, by decide +kernel⟩,
   ⟨on { up .idle with clk.pw := 1 }, .host, by decide +kernel⟩,
   ⟨on (up .idle), 999, by decide +kernel⟩,
   ⟨on { up .idle with clk.pw := 3, clk.wakeEn := 2 }, 1000, by decide +kernel⟩,
   ⟨on { up .idle with clk.pw := 3, clk.wakeEn := 4 }, by decide +kernel⟩,
   ⟨on (up .idle), by decide +kernel⟩,
   ⟨on { up .idle with clk.pw := 2 }, by decide +kernel⟩,
   ⟨on (up .idle), by decide +kernel⟩,
   ⟨on (up .idle), .manager, _, passes_mk (by decide +kernel), by decide +kernel⟩,
   ⟨on { up .idle with clk.gate := 0 }, .board, _, passes_mk (by decide +kernel), by decide +kernel⟩,
   ⟨on { up .idle with clk.hbmcStopping := true }, .board, _, passes_mk (by decide +kernel), by decide +kernel⟩,
   ⟨on { up .idle with clk.pw := 3, clk.pwRequested := true }, .host, by decide +kernel⟩,
   ⟨on { up .idle with clk.pwRequested := true, host.held := [cmd 0x0902 [1]] }, .host, _, by decide +kernel, by decide +kernel, by decide +kernel, rfl, by decide +kernel⟩⟩

theorem witness_Thermos :
    (∃ s : State, ∃ r : ThermosReading, nocOn s.dev.clk = true ∧ s.dev.clk.pw ≠ 3 ∧ (s.dev.run.st = .idle ∨ s.dev.run.st = .loaded ∨ s.dev.run.st = .stopped) ∧ (idleMv s.dev.th ≤ s.dev.th.setMv ∨ (s.dev.th.throttling = false ∧ railLimited (readRails r s.dev).th = false))) ∧
    (∃ s : State, ∃ r : ThermosReading, nocOn s.dev.clk = true ∧ s.dev.clk.pw ≠ 3 ∧ (s.dev.run.st = .idle ∨ s.dev.run.st = .loaded ∨ s.dev.run.st = .stopped) ∧ s.dev.th.setMv < idleMv s.dev.th ∧ (railLimited (readRails r s.dev).th = true ∨ (s.dev.th.throttling = true ∧ powerLimit s.dev.th < r.hubW + r.rail0.poutW + r.rail1.poutW + r.rail2.poutW + r.rail3.poutW))) ∧
    (∃ s : State, ∃ r : ThermosReading, nocOn s.dev.clk = true ∧ (s.dev.clk.pw = 3 ∨ s.dev.run.st = .boot)) ∧
    (∃ s : State, ∃ r : ThermosReading, nocOn s.dev.clk = true ∧ s.dev.clk.pw ≠ 3 ∧ (s.dev.run.st = .loading ∨ s.dev.run.st = .rewinding ∨ s.dev.run.st = .stranded ∨ (s.dev.run.st = .faulted ∧ s.dev.run.fault ≠ 0x0921)) ∧ paceAim s.dev.run.paceTargetUse s.dev.run.paceCapUse = 0 ∧ 750 ≤ s.dev.th.setMv) ∧
    (∃ s : State, ∃ r : ThermosReading, nocOn s.dev.clk = true ∧ s.dev.clk.pw ≠ 3 ∧ s.dev.run.st = .faulted ∧ s.dev.run.fault = 0x0921 ∧ idleMv s.dev.th ≤ s.dev.th.setMv) ∧
    (∃ s : State, ∃ r : ThermosReading, nocOn s.dev.clk = false) ∧
    (∃ s : State, nocOn s.dev.clk = true ∧ s.dev.th.throttling = false ∧ junctionAt s.dev.th (throttleAt s.dev.th) = true) ∧
    (∃ s : State, nocOn s.dev.clk = true ∧ s.dev.th.throttling = true ∧ min s.dev.th.limitW 850 < s.dev.th.powerW) ∧
    (∃ s : State, (nocOn s.dev.clk = false ∨ s.dev.th.throttling = false ∨ s.dev.th.powerW ≤ min s.dev.th.limitW 850)) ∧
    (∃ s : State, nocOn s.dev.clk = true ∧ junctionAt s.dev.th (16 * 85) = false) ∧
    (∃ s : State, s.dev.run.st = .running) ∧
    (∃ s : State, s.dev.run.st = .idle) ∧
    (∃ s : State, ∃ die : Fin 4, s.dev.run.st = .running) ∧
    (∃ s : State, ∃ die : Fin 4, s.dev.run.st = .idle) ∧
    (∃ s : State, ∃ f : BitVec 4, s.dev.run.st = .idle ∧ f ≠ 0) ∧
    (∃ s : State, keepOn s.dev.clk = true ∧ s.dev.th.wearSeconds ≤ 7200000) ∧
    (∃ s : State, keepOn s.dev.clk = false) ∧
    (∃ s : State, keepOn s.dev.clk = true ∧ 7200000 < s.dev.th.wearSeconds) ∧
    (∃ s : State, ∃ r : ThermosReading, nocOn s.dev.clk = true) ∧
    (∃ s : State, ∃ f : BitVec 4, s.dev.run.st = .running ∧ f ≠ 0) :=
  ⟨⟨on (up .stopped), ⟨⟨700, 100, 70, 0⟩, ⟨700, 100, 70, 0⟩, ⟨700, 100, 70, 0⟩, ⟨700, 100, 70, 0⟩, 50, 0, 0⟩, by decide +kernel⟩,
   ⟨on { up .idle with th.setMv := 600, th.throttling := true }, ⟨⟨700, 255, 70, 0⟩, ⟨700, 100, 700, 0⟩, ⟨700, 100, 70, 0⟩, ⟨700, 100, 70, 0⟩, 50, 0, 0⟩, by decide +kernel⟩,
   ⟨on { up .boot with th.setMv := 700 }, ⟨⟨700, 100, 70, 0⟩, ⟨700, 100, 70, 0⟩, ⟨700, 100, 70, 0⟩, ⟨700, 100, 70, 0⟩, 50, 0, 0⟩, by decide +kernel⟩,
   ⟨on { up .loading with th.setMv := 800 }, ⟨⟨700, 100, 70, 0⟩, ⟨700, 100, 70, 0⟩, ⟨700, 100, 70, 0⟩, ⟨700, 100, 70, 0⟩, 50, 0, 0⟩, by decide +kernel⟩,
   ⟨on { up .faulted with th.setMv := 800, run.fault := 0x0921 }, ⟨⟨700, 100, 70, 0⟩, ⟨700, 100, 70, 0⟩, ⟨700, 100, 70, 0⟩, ⟨700, 100, 70, 0⟩, 50, 0, 0⟩, by decide +kernel⟩,
   ⟨on { up .stopped with clk.pw := 4 }, ⟨⟨0, 0, 0, 0⟩, ⟨0, 0, 0, 0⟩, ⟨0, 0, 0, 0⟩, ⟨0, 0, 0, 0⟩, 0, 0, 0⟩, by decide +kernel⟩,
   ⟨on { up .running with th.rails := [(2, (0, 0, 1680))] }, by decide +kernel⟩,
   ⟨on { up .running with th.throttling := true, th.powerW := 851 }, by decide +kernel⟩,
   ⟨on { up .running with th.throttling := true, th.powerW := 850 }, by decide +kernel⟩,
   ⟨on { up .running with th.throttling := true, th.rails := [(2, (0, 0, 1359))] }, by decide +kernel⟩,
   ⟨on (up .running), by decide +kernel⟩,
   ⟨on (up .idle), by decide +kernel⟩,
   ⟨on (up .running), 3, by decide +kernel⟩,
   ⟨on (up .idle), 3, by decide +kernel⟩,
   ⟨on (up .idle), 15, by decide +kernel⟩,
   ⟨on { up .running with th.wearSeconds := 7200000 }, by decide +kernel⟩,
   ⟨on { up .idle with clk.pw := 3, clk.gate := 0 }, by decide +kernel⟩,
   ⟨on { up .running with th.wearSeconds := 7200001 }, by decide +kernel⟩,
   ⟨on (up .running), ⟨⟨700, 100, 70, 0⟩, ⟨700, 100, 70, 0⟩, ⟨700, 100, 70, 0⟩, ⟨700, 100, 70, 0⟩, 50, 0, 0⟩, by decide +kernel⟩,
   ⟨on (up .running), 8, by decide +kernel⟩⟩

theorem witness_PinsAndPorts :
    (∃ s : State, ∃ b : Fin 8, ∃ v : BitVec 2, (v = 1 ∨ v = 2) ∧ validSupply (vddioOf s.dev.tio b) = false) ∧
    (∃ s : State, ∃ b : Fin 8, ∃ v : BitVec 2, (v = 1 ∨ v = 2) ∧ validSupply (vddioOf s.dev.tio b) = true) ∧
    (∃ s : State, ∃ b : Fin 8, ∃ v : BitVec 2, (v = 0 ∨ v = 3) ∧ validSupply (vddioOf s.dev.tio b) = true) ∧
    (∃ s : State, ∃ b : Fin 8, ∃ v : BitVec 2, (v = 0 ∨ v = 3) ∧ validSupply (vddioOf s.dev.tio b) = false) ∧
    (∃ s : State, ∃ a : Nat, ∃ x : BitVec 16, ∃ env : PinEnv, a < 0x2000 ∧ a % 8 / 2 ≠ 3) ∧
    (∃ s : State, ∃ a : Nat, ∃ x : BitVec 16, ∃ env : PinEnv, a < 0x2000 ∧ a % 8 / 2 = 3) ∧
    (∃ s : State, ∃ a : Nat, ∃ x : BitVec 16, ∃ env : PinEnv, 0x2000 ≤ a ∧ a < 0x3000) ∧
    (∃ s : State, ∃ a : Nat, a < 0x2000 ∧ a % 8 / 2 = 0) ∧
    (∃ s : State, ∃ a : Nat, ∃ w : W64, a < 0x2000 ∧ a % 8 / 2 ≠ 0 ∧ s.dev.host.pspRead = some (a / 8, w)) ∧
    (∃ s : State, ∃ a : Nat, a < 2 ^ 40) ∧
    (∃ s : State, ∃ a : Nat, ∃ v : W64, ∃ env : PinEnv, a < 2 ^ 40) ∧
    (∃ s : State, s.dev.clk.pw ≠ 4 ∧ 1 ≤ s.dev.clk.stage ∧ s.dev.host.spiStatus < 256 ∧ s.dev.host.spiOpen = false ∧ nocOn s.dev.clk = true) ∧
    (∃ s : State, s.dev.clk.pw ≠ 4 ∧ 1 ≤ s.dev.clk.stage ∧ (s.dev.host.spiOpen = true ∨ nocOn s.dev.clk = false)) ∧
    (∃ s : State, (s.dev.clk.pw = 4 ∨ s.dev.clk.stage < 1)) ∧
    (∃ env : PinEnv, ∃ l : List Byte, l.length < 5) ∧
    (∃ env : PinEnv, ∃ l : List Byte, l.length < 13) ∧
    (∃ s : State, ∃ x : Jtag, s.dev.tio.highZ = false ∧ (∀ i, i < 256 → supplied s.dev.tio i = true) ∧ s.dev.tio.wait = 0 ∧ (s.dev.run.st = .boot ∨ s.dev.run.st = .idle) ∧ (x = .extest ∨ x = .extestPulse ∨ x = .extestTrain ∨ x = .clamp) ∧ ∃ i, landBit s.dev.pins.landEn i = false) ∧
    (∃ s : State, ∃ x : Jtag, s.dev.tio.highZ = false ∧ (∀ i, i < 256 → supplied s.dev.tio i = true) ∧ s.dev.tio.wait = 0 ∧ (s.dev.run.st = .boot ∨ s.dev.run.st = .idle) ∧ (x = .extest ∨ x = .extestPulse ∨ x = .extestTrain ∨ x = .clamp) ∧ ∃ i, landBit s.dev.pins.landEn i = true) ∧
    (∃ s : State, ∃ x : Jtag, s.dev.tio.highZ = false ∧ (∀ i, i < 256 → supplied s.dev.tio i = true) ∧ s.dev.tio.wait = 0 ∧ (s.dev.run.st = .boot ∨ s.dev.run.st = .idle) ∧ x = .highz) ∧
    (∃ s : State, ∃ x : Jtag, s.dev.tio.highZ = false ∧ (∀ i, i < 256 → supplied s.dev.tio i = true) ∧ s.dev.tio.wait = 0 ∧ (x = .bypass ∨ x = .idcode ∨ x = .samplePreload ∨ (s.dev.run.st ≠ .boot ∧ s.dev.run.st ≠ .idle))) ∧
    (∃ op : Byte, 7 ≤ op.toNat) :=
  ⟨⟨on { up .idle with tio.vddio := [(7, 0)] }, 7, 2, by decide +kernel⟩,
   ⟨on (up .idle), 7, 2, by decide +kernel⟩,
   ⟨on (up .idle), 7, 0, by decide +kernel⟩,
   ⟨on { up .idle with tio.vddio := [(7, 0)] }, 7, 3, by decide +kernel⟩,
   ⟨on (up .idle), 0x1FFC, 0x1234, PinEnv.none, by decide +kernel⟩,
   ⟨on (up .idle), 0x1FFE, 0x1234, PinEnv.none, by decide +kernel⟩,
   ⟨on (up .idle), 0x2FFE, 0x1234, PinEnv.none, by decide +kernel⟩,
   ⟨on (up .idle), 0x1FF8, by decide +kernel⟩,
   ⟨on { up .idle with host.pspRead := some (0x3FF, 5) }, 0x1FFE, 5, by decide +kernel⟩,
   ⟨on (up .idle), 0x60_0007_0000, by decide +kernel⟩,
   ⟨on (up .idle), 0xFF_FFFF_FFF8, 5, PinEnv.none, by decide +kernel⟩,
   ⟨on { up .idle with host.spiStatus := 255 }, by decide +kernel⟩,
   ⟨on { up .idle with host.spiOpen := true }, by decide +kernel⟩,
   ⟨on { up .boot with clk.stage := 0 }, by decide +kernel⟩,
   ⟨PinEnv.none, [1, 2, 3, 4], by decide +kernel⟩,
   ⟨PinEnv.none, [1, 2, 3, 4, 5, 6, 7, 8, 9, 10, 11, 12], by decide +kernel⟩,
   ⟨on (up .idle), .clamp, by decide +kernel, by decide +kernel, by decide +kernel, by decide +kernel, by decide +kernel, 7, by decide +kernel⟩,
   ⟨on { up .idle with pins.landEn := [2], pins.landOut := [2] }, .extestTrain, by decide +kernel, by decide +kernel, by decide +kernel, by decide +kernel, by decide +kernel, 1, by decide +kernel⟩,
   ⟨on (up .idle), .highz, by decide +kernel⟩,
   ⟨on (up .running), .extest, by decide +kernel⟩,
   ⟨255, by decide +kernel⟩⟩

theorem witness_FetchCorrects :
    (
      let codes : List Nat := [3, 5, 6, 7] ++ (List.range 7).map (· + 9) ++ (List.range 15).map (· + 17) ++ (List.range 31).map (· + 33)
          ++ (List.range 23).map (· + 65)
      ∃ w : BitVec 88, 
      let p := w.toNat % 2 ^ 80
      
      let S := w.toNat / 2 ^ 80 % 2 ^ 7 ^^^ codes.zipIdx.foldl (fun x (c, i) => if p.testBit i then x ^^^ c else x) 0
      
      let P := parity 88 w.toNat
      P = false ∧ S = 0) ∧
    (
      let codes : List Nat := [3, 5, 6, 7] ++ (List.range 7).map (· + 9) ++ (List.range 15).map (· + 17) ++ (List.range 31).map (· + 33)
          ++ (List.range 23).map (· + 65)
      ∃ w : BitVec 88, 
      let p := w.toNat % 2 ^ 80
      
      let S := w.toNat / 2 ^ 80 % 2 ^ 7 ^^^ codes.zipIdx.foldl (fun x (c, i) => if p.testBit i then x ^^^ c else x) 0
      
      let P := parity 88 w.toNat
      P = true ∧ S = 0) ∧
    (
      let codes : List Nat := [3, 5, 6, 7] ++ (List.range 7).map (· + 9) ++ (List.range 15).map (· + 17) ++ (List.range 31).map (· + 33)
          ++ (List.range 23).map (· + 65)
      ∃ w : BitVec 88, 
      let p := w.toNat % 2 ^ 80
      
      let S := w.toNat / 2 ^ 80 % 2 ^ 7 ^^^ codes.zipIdx.foldl (fun x (c, i) => if p.testBit i then x ^^^ c else x) 0
      
      let P := parity 88 w.toNat
      ∃ j, j < 7 ∧ P = true ∧ S = 2 ^ j) ∧
    (
      let codes : List Nat := [3, 5, 6, 7] ++ (List.range 7).map (· + 9) ++ (List.range 15).map (· + 17) ++ (List.range 31).map (· + 33)
          ++ (List.range 23).map (· + 65)
      ∃ w : BitVec 88, 
      let p := w.toNat % 2 ^ 80
      
      let S := w.toNat / 2 ^ 80 % 2 ^ 7 ^^^ codes.zipIdx.foldl (fun x (c, i) => if p.testBit i then x ^^^ c else x) 0
      
      let P := parity 88 w.toNat
      ∃ i, i < 80 ∧ P = true ∧ S = codes.getD i 0) ∧
    (
      let codes : List Nat := [3, 5, 6, 7] ++ (List.range 7).map (· + 9) ++ (List.range 15).map (· + 17) ++ (List.range 31).map (· + 33)
          ++ (List.range 23).map (· + 65)
      ∃ w : BitVec 88, 
      let p := w.toNat % 2 ^ 80
      
      let S := w.toNat / 2 ^ 80 % 2 ^ 7 ^^^ codes.zipIdx.foldl (fun x (c, i) => if p.testBit i then x ^^^ c else x) 0
      
      let P := parity 88 w.toNat
      P = true ∧ 88 ≤ S) ∧
    (
      let codes : List Nat := [3, 5, 6, 7] ++ (List.range 7).map (· + 9) ++ (List.range 15).map (· + 17) ++ (List.range 31).map (· + 33)
          ++ (List.range 23).map (· + 65)
      ∃ w : BitVec 88, 
      let p := w.toNat % 2 ^ 80
      
      let S := w.toNat / 2 ^ 80 % 2 ^ 7 ^^^ codes.zipIdx.foldl (fun x (c, i) => if p.testBit i then x ^^^ c else x) 0
      
      let P := parity 88 w.toNat
      P = false ∧ S ≠ 0) ∧
    (
      let codes : List Nat := [3, 5, 6, 7] ++ (List.range 7).map (· + 9) ++ (List.range 15).map (· + 17) ++ (List.range 31).map (· + 33)
          ++ (List.range 23).map (· + 65)
      ∃ w : BitVec 32, 
      let p := w.toNat % 2 ^ 24
      
      let S := w.toNat / 2 ^ 24 % 2 ^ 5 ^^^ (codes.take 24).zipIdx.foldl (fun x (c, i) => if p.testBit i then x ^^^ c else x) 0
      
      let P := parity 30 w.toNat
      P = false ∧ S = 0) ∧
    (
      let codes : List Nat := [3, 5, 6, 7] ++ (List.range 7).map (· + 9) ++ (List.range 15).map (· + 17) ++ (List.range 31).map (· + 33)
          ++ (List.range 23).map (· + 65)
      ∃ w : BitVec 32, 
      let p := w.toNat % 2 ^ 24
      
      let S := w.toNat / 2 ^ 24 % 2 ^ 5 ^^^ (codes.take 24).zipIdx.foldl (fun x (c, i) => if p.testBit i then x ^^^ c else x) 0
      
      let P := parity 30 w.toNat
      P = true ∧ S = 0) ∧
    (
      let codes : List Nat := [3, 5, 6, 7] ++ (List.range 7).map (· + 9) ++ (List.range 15).map (· + 17) ++ (List.range 31).map (· + 33)
          ++ (List.range 23).map (· + 65)
      ∃ w : BitVec 32, 
      let p := w.toNat % 2 ^ 24
      
      let S := w.toNat / 2 ^ 24 % 2 ^ 5 ^^^ (codes.take 24).zipIdx.foldl (fun x (c, i) => if p.testBit i then x ^^^ c else x) 0
      
      let P := parity 30 w.toNat
      ∃ j, j < 5 ∧ P = true ∧ S = 2 ^ j) ∧
    (
      let codes : List Nat := [3, 5, 6, 7] ++ (List.range 7).map (· + 9) ++ (List.range 15).map (· + 17) ++ (List.range 31).map (· + 33)
          ++ (List.range 23).map (· + 65)
      ∃ w : BitVec 32, 
      let p := w.toNat % 2 ^ 24
      
      let S := w.toNat / 2 ^ 24 % 2 ^ 5 ^^^ (codes.take 24).zipIdx.foldl (fun x (c, i) => if p.testBit i then x ^^^ c else x) 0
      
      let P := parity 30 w.toNat
      ∃ i, i < 24 ∧ P = true ∧ S = codes.getD i 0) ∧
    (
      let codes : List Nat := [3, 5, 6, 7] ++ (List.range 7).map (· + 9) ++ (List.range 15).map (· + 17) ++ (List.range 31).map (· + 33)
          ++ (List.range 23).map (· + 65)
      ∃ w : BitVec 32, 
      let p := w.toNat % 2 ^ 24
      
      let S := w.toNat / 2 ^ 24 % 2 ^ 5 ^^^ (codes.take 24).zipIdx.foldl (fun x (c, i) => if p.testBit i then x ^^^ c else x) 0
      
      let P := parity 30 w.toNat
      P = true ∧ (S = 30 ∨ S = 31)) ∧
    (
      let codes : List Nat := [3, 5, 6, 7] ++ (List.range 7).map (· + 9) ++ (List.range 15).map (· + 17) ++ (List.range 31).map (· + 33)
          ++ (List.range 23).map (· + 65)
      ∃ w : BitVec 32, 
      let p := w.toNat % 2 ^ 24
      
      let S := w.toNat / 2 ^ 24 % 2 ^ 5 ^^^ (codes.take 24).zipIdx.foldl (fun x (c, i) => if p.testBit i then x ^^^ c else x) 0
      
      let P := parity 30 w.toNat
      P = false ∧ S ≠ 0) ∧
    (∃ p : BitVec 80, ∃ i, i < 88) ∧
    (∃ p : BitVec 80, ∃ i, ∃ j, i < 88 ∧ j < 88 ∧ i ≠ j) ∧
    (∃ p : BitVec 24, ∃ i, i < 30) ∧
    (∃ p : BitVec 24, ∃ i, ∃ j, i < 30 ∧ j < 30 ∧ i ≠ j) ∧
    (∃ s : State, ∃ p : Fin 528, ∃ c : Fin 16, ∃ ws : List (Nat × StepW × Bool), 
      let C := clusterOf (tileOf s.dev p) c
      cycleOpen s.dev = true ∧ tileActive s.dev p = true ∧ C.done = false ∧ C.ecc = none ∧ C.fetched = false ∧ fetchStep (tileOf s.dev p) c C.step 64 = .ok ws) ∧
    (∃ s : State, ∃ p : Fin 528, ∃ c : Fin 16, ∃ b : Nat, 
      let C := clusterOf (tileOf s.dev p) c
      cycleOpen s.dev = true ∧ tileActive s.dev p = true ∧ C.done = false ∧ C.ecc = none ∧ fetchStep (tileOf s.dev p) c C.step 64 = .error b) ∧
    (∃ s : State, ∃ env : PinEnv, cycleOpen s.dev = true ∧ s.dev.clk.frozen = false ∧ allDone s.dev = true ∧ markersIn s.dev = true ∧ (
      let d := flushReplay (drainMesh s.dev)
      replayLeft d = false ∧ badCommits d = [] ∧ ∃ p : Fin 528, tileActive s.dev p = true)) ∧
    (∃ s : State, ∃ env : PinEnv, cycleOpen s.dev = true ∧ s.dev.clk.frozen = false ∧ allDone s.dev = true ∧ markersIn s.dev = true ∧ (
      let d := flushReplay (drainMesh s.dev)
      replayLeft d = false ∧ badCommits d ≠ [])) :=
  ⟨⟨0, by decide +kernel⟩,
   ⟨1 <<< 87, by decide +kernel⟩,
   ⟨1 <<< 80, 0, by decide +kernel⟩,
   ⟨1, 0, by decide +kernel⟩,
   ⟨88 <<< 80, by decide +kernel⟩,
   ⟨3 <<< 80, by decide +kernel⟩,
   ⟨0, by decide +kernel⟩,
   ⟨1 <<< 29, by decide +kernel⟩,
   ⟨1 <<< 24, 0, by decide +kernel⟩,
   ⟨1, 0, by decide +kernel⟩,
   ⟨31 <<< 24, by decide +kernel⟩,
   ⟨3 <<< 24, by decide +kernel⟩,
   ⟨0, 87, by decide +kernel⟩,
   ⟨0, 0, 87, by decide +kernel⟩,
   ⟨0, 29, by decide +kernel⟩,
   ⟨0, 0, 29, by decide +kernel⟩,
   ⟨on (tile (stepsWith (nop ^^^ 1)) { up .running with run.fullPass := true }), 0, 15, (List.range 64).map fun b => (b, stepW (0xFF <<< 68), decide (b = 0)), by decide +kernel, by decide +kernel, by decide +kernel, by decide +kernel, by decide +kernel, except_mk (by decide +kernel)⟩,
   ⟨on (tile (stepsWith 3) (up .running)), 0, 15, 0, by decide +kernel, by decide +kernel, by decide +kernel, by decide +kernel, error_mk (by decide +kernel)⟩,
   ⟨on (tile { badTile with stores := [(storeKey kCOMMIT 0, [(0, (commitEncode 0xFFF_FFF).setWidth 128)])] } (up .running)), PinEnv.none, by decide +kernel, by decide +kernel, by decide +kernel, by decide +kernel, by decide +kernel, by decide +kernel, 0, by decide +kernel⟩,
   ⟨on (tile badTile (up .running)), PinEnv.none, by decide +kernel⟩⟩

theorem witness_SwapHeld :
    (∃ s : State, ∃ m : Master, ∃ v : W64, ∃ d : Dev, Passes m (aSn 0) s d ∧ netWriter m = true ∧ bit v 0 = true ∧ d.sn.draining = true) ∧
    (∃ s : State, s.dev.sn.draining = true ∧ s.dev.sn.swapPending = true ∧ (s.dev.sn.owed.all fun p => p.epoch = s.dev.sn.current) = true ∧ (s.dev.events.all fun e => e.sent ≠ some (!s.dev.sn.current)) = true) ∧
    (∃ s : State, ∃ m : Master, ∃ v : W64, ∃ d : Dev, Passes m (aSn 0) s d ∧ netWriter m = true ∧ bit v 0 = true ∧ d.sn.draining = false ∧ (∀ n, tget 0 d.sn.affect n = 0)) :=
  ⟨⟨on { up .running with sn.draining := true }, .core, 1, _, passes_mk (by decide +kernel), by decide +kernel⟩,
   ⟨on { up .running with sn.draining := true, sn.swapPending := true }, by decide +kernel⟩,
   ⟨on (up .running), .seat .manager, 1, _, passes_mk (by decide +kernel), by decide +kernel, by decide +kernel, by decide +kernel, fun _ => rfl⟩⟩

theorem witness_ClaimsStayNested :
    (∃ s : State, ∃ t : State, claimsOk s.irq ∧ step s = .next t) :=
  ⟨State.reset, _, ⟨by decide, fun _ _ h => nomatch h⟩, rfl⟩

theorem witness_ResetState :
    (∃ x : State, x.pending = [] ∧ x.dev.clk.frozen = false ∧ x.dev.clk.tscNew = none) ∧
    (∃ x : State, ∃ n : Nat, x.pending = [] ∧ x.dev.clk.frozen = false ∧ x.dev.clk.tscNew = some n) ∧
    (∃ x : State, x.pending = [] ∧ x.dev.clk.frozen = true) :=
  ⟨⟨State.reset, by decide +kernel⟩,
   ⟨{ State.reset with dev.clk.tscNew := some 5 }, 5, by decide +kernel⟩,
   ⟨{ State.reset with dev.clk.frozen := true }, by decide +kernel⟩⟩


end Sys2Proof.Tests
end

section
/-! PROOFS. The commit of a state slot (R45, O5): a frame lemma for every step of the barrier but its commit, the commit of one entry, of
one BP and of every BP, and the barrier from these. -/

namespace Sys2Proof.Machine

/-! ## What the commit reads -/

/-- What the commit reads of a tile: PLACED, its stores, and the rows of its BPs. -/
def commitView (T : Tile) : Bool × Tbl (Tbl (BitVec 128)) × (Nat → Nat → Bp) :=
  (T.placed, T.stores, fun c b => bpOf (clusterOf T c) b)
/-- The same of every tile of a table. -/
def commitViews (ts : Tbl Tile) (p : Nat) : Bool × Tbl (Tbl (BitVec 128)) × (Nat → Nat → Bp) := commitView (tget Tile.reset ts p)

/-- A change of the module that the commit cannot see. Each shared operation has a lemma `keeps_…`; `simp` takes each of its four
parts. -/
abbrev Keeps (d d' : Dev) : Prop :=
  d'.fuse = d.fuse ∧ d'.image = d.image ∧ d'.regions = d.regions ∧ commitViews d'.tiles = commitViews d.tiles

theorem Keeps.fuse {d d' : Dev} (h : Keeps d d') : d'.fuse = d.fuse := h.1
theorem Keeps.image {d d' : Dev} (h : Keeps d d') : d'.image = d.image := h.2.1
theorem Keeps.regions {d d' : Dev} (h : Keeps d d') : d'.regions = d.regions := h.2.2.1
theorem Keeps.views {d d' : Dev} (h : Keeps d d') : commitViews d'.tiles = commitViews d.tiles := h.2.2.2

theorem Keeps.refl (d : Dev) : Keeps d d := ⟨rfl, rfl, rfl, rfl⟩

theorem Keeps.after {d d' d'' : Dev} (h' : Keeps d' d'') (h : Keeps d d') : Keeps d d'' :=
  ⟨h'.fuse.trans h.fuse, h'.image.trans h.image, h'.regions.trans h.regions, h'.views.trans h.views⟩

theorem Keeps.foldl {κ : Type} {f : Dev → κ → Dev} (h : ∀ d x, Keeps d (f d x)) (l : List κ) (d : Dev) :
    Keeps d (l.foldl f d) := by
  induction l generalizing d with
  | nil => exact .refl d
  | cons x r ih => exact (ih (f d x)).after (h d x)

/-- A change of an entry that a view of the entries does not show. -/
theorem tget_tupd_view {α β : Type} [DecidableEq α] {d : α} {view : α → β} {f : α → α} (h : ∀ x, view (f x) = view x)
    {t : Tbl α} {i j : Nat} : view (tget d (tupd d t i f) j) = view (tget d t j) := by
  unfold tupd
  rw [tget_tset]
  split
  · subst_vars; exact h _
  · rfl

/-- The same of several entries. -/
theorem tget_foldl_tupd_view {α β κ : Type} [DecidableEq α] {d : α} {view : α → β} {f : α → α} (h : ∀ x, view (f x) = view x)
    {key : κ → Nat} {l : List κ} {t : Tbl α} {j : Nat} :
    view (tget d (l.foldl (fun t k => tupd d t (key k) f) t) j) = view (tget d t j) := by
  induction l generalizing t with
  | nil => rfl
  | cons k r ih => exact ih.trans (tget_tupd_view h)

theorem keeps_updTile {d : Dev} {p : Nat} {f : Tile → Tile} (h : ∀ T, commitView (f T) = commitView T := by exact fun _ => rfl) :
    Keeps d (updTile d p f) :=
  ⟨rfl, rfl, rfl, funext fun _ => tget_tupd_view h⟩

/-- A tile's view, with the same stores and clusters whose BPs are the same. -/
theorem commitView_congr {T T' : Tile} (hp : T'.placed = T.placed) (hs : T'.stores = T.stores)
    (hc : ∀ c, (clusterOf T' c).bps = (clusterOf T c).bps) : commitView T' = commitView T := by
  simp only [commitView, bpOf, hp, hs, hc]

theorem keeps_updCluster {d : Dev} {p c : Nat} {f : Cluster → Cluster} (h : ∀ C, (f C).bps = C.bps := by exact fun _ => rfl) :
    Keeps d (updCluster d p c f) :=
  keeps_updTile fun _ => commitView_congr rfl rfl fun _ => tget_tupd_view h

theorem keeps_updCtx {d : Dev} {p q : Nat} {f : Ctx → Ctx} : Keeps d (updCtx d p q f) := keeps_updTile

theorem keeps_updPort {d : Dev} {p c i : Nat} {f : InPort → InPort} : Keeps d (updPort d p c i f) := keeps_updCluster

/-! ## Records, packets, states and stops -/

@[simp] theorem keeps_overflowSync {core : Nat} {d : Dev} : Keeps d (overflowSync core d) := by
  unfold overflowSync
  split <;> exact .refl d

@[simp] theorem keeps_dropPacket {src : Nat} {d : Dev} : Keeps d (dropPacket src d) := by
  unfold dropPacket
  split
  · exact .refl d
  · split <;> exact .refl d

@[simp] theorem keeps_trace {src kind : Nat} {ws : List W64} {d : Dev} : Keeps d (trace src kind ws d) := by
  unfold trace
  split
  · exact .refl d
  · split
    · dsimp only
      split <;> simp [Keeps, putPacket]
    · split <;> simp [Keeps, putPacket]

@[simp] theorem keeps_traceRun {ev v : Nat} {d : Dev} : Keeps d (traceRun ev v d) := keeps_trace
@[simp] theorem keeps_pulse {src : Nat} {d : Dev} : Keeps d (pulse src d) := .refl d
@[simp] theorem keeps_logEntry {code : Nat} {w : Option (W64 × W64)} {d : Dev} : Keeps d (logEntry code w d) := .refl d

@[simp] theorem keeps_enterState {st : ModState} {d : Dev} : Keeps d (enterState st d) := by
  unfold enterState
  split
  · exact .refl d
  · dsimp only
    split <;> simp [Keeps]

@[simp] theorem keeps_setHold {a b : Bool} {d : Dev} : Keeps d (setHold a b d) := by
  unfold setHold
  dsimp only
  split <;> simp [Keeps]

@[simp] theorem keeps_setCauses {set : BitVec 16} {d : Dev} : Keeps d (setCauses set d) := .refl d

@[simp] theorem keeps_registerStop {cause : Nat} {d : Dev} : Keeps d (registerStop cause d) := by
  unfold registerStop
  dsimp only
  split
  · split <;> simp [Keeps]
  · split <;> exact .refl d
  all_goals exact .refl d

@[simp] theorem keeps_recordHalts {d : Dev} : Keeps d (recordHalts d) := by
  unfold recordHalts
  split <;> exact .refl d

/-! ## Packets on the service network -/

@[simp] theorem keeps_passPath {p : Packet} {path : List (Nat × Nat × Nat)} {d : Dev} : Keeps d (passPath p path d) := by
  refine Keeps.foldl (fun d i => ?_) _ d
  split
  · dsimp only
    split <;> simp [Keeps]
  · exact .refl d

@[simp] theorem keeps_passResponse {p : Packet} {router status : Nat} {data : List W64} {d : Dev} :
    Keeps d (passResponse p router status data d) := keeps_passPath

@[simp] theorem keeps_travel {p : Packet} {decoded : Bool} {dom : Nat} {d : Dev} : Keeps d (travel p decoded dom d).2 := by
  unfold travel
  dsimp only
  repeat' split
  all_goals simp [Keeps]

@[simp] theorem keeps_countDrop {n : Nat} {d : Dev} : Keeps d (countDrop n d) := by
  unfold countDrop
  split <;> exact .refl d

@[simp] theorem keeps_engineCall {p : Packet} {data : List W64} {d : Dev} : Keeps d (engineCall p data d).2 := by
  unfold engineCall
  dsimp only
  split <;> simp [Keeps]

theorem keeps_post {p : Packet} {dom : Nat} {f : Dev → Dev} {d : Dev} (hf : ∀ d, Keeps d (f d)) : Keeps d (post p dom f d) := by
  unfold post
  dsimp only
  split
  · exact (hf _).after keeps_travel
  · exact keeps_countDrop.after keeps_travel

/-! ## Capture -/

@[simp] theorem keeps_capPost {a : Nat} {w : BitVec 32} {d : Dev} : Keeps d (capPost a w d) :=
  keeps_post fun _ => ⟨rfl, rfl, rfl, rfl⟩

@[simp] theorem keeps_capPut {die h x : Nat} {w : BitVec 32} {d : Dev} : Keeps d (capPut die h x w d) := by
  unfold capPut
  split
  · exact .refl d
  · dsimp only
    split <;> simp [Keeps]

theorem keeps_releaseWords {l : List (Nat × BitVec 32)} {d : Dev} : Keeps d (releaseWords l d) := by
  induction l generalizing d with
  | nil => exact .refl d
  | cons x r ih =>
    unfold releaseWords
    split
    · exact .refl d
    · exact ih.after keeps_capPost

@[simp] theorem keeps_flushHeld {d : Dev} : Keeps d (flushHeld d) := keeps_releaseWords.after (.refl d)

@[simp] theorem keeps_putRing {die h size pos : Nat} {l : List (BitVec 32)} {d : Dev} : Keeps d (putRing die h size pos l d) := by
  induction l generalizing pos d with
  | nil => exact .refl d
  | cons w r ih => exact ih.after keeps_capPut

@[simp] theorem keeps_putWords {die h x : Nat} {l : List (BitVec 32)} {d : Dev} : Keeps d (putWords die h x l d) := by
  induction l generalizing x d with
  | nil => exact .refl d
  | cons w r ih => exact ih.after keeps_capPut

@[simp] theorem keeps_updDie {d : Dev} {die : Nat} {f : CapDie → CapDie} : Keeps d (updDie d die f) := .refl d

@[simp] theorem keeps_endWindow {die : Nat} {d : Dev} : Keeps d (endWindow die d) := by
  unfold endWindow
  dsimp only
  repeat' split
  all_goals simp [Keeps]

@[simp] theorem keeps_endWindows {next : Nat} {d : Dev} : Keeps d (endWindows next d) := by
  simp [Keeps, endWindows]

@[simp] theorem keeps_headerDie {T st entry die : Nat} {d : Dev} : Keeps d (headerDie T st entry die d) := by
  unfold headerDie
  simp [Keeps]

@[simp] theorem keeps_trailerDie {cut : Bool} {die : Nat} {d : Dev} : Keeps d (trailerDie cut die d) := by
  unfold trailerDie
  dsimp only
  split <;> simp [Keeps, takeFreeWord]


@[simp] theorem keeps_endSession {b : Bool} {d : Dev} : Keeps d (endSession b d) := .refl d

@[simp] theorem keeps_closeHamper {cut : Bool} {d : Dev} : Keeps d (closeHamper cut d) := by
  unfold closeHamper
  dsimp only
  split <;> simp [Keeps]

@[simp] theorem keeps_seqEval {d : Dev} : Keeps d (seqEval d).1 := by
  unfold seqEval
  dsimp only
  split
  · exact .refl d
  · dsimp only
    split <;> exact .refl d

@[simp] theorem keeps_startSession {a : Nat} {d : Dev} : Keeps d (startSession a d) := by
  unfold startSession
  dsimp only
  split <;> simp [Keeps]

@[simp] theorem keeps_takeRecords {full : Bool} {n : Nat} {d : Dev} : Keeps d (takeRecords full n d) := by
  unfold takeRecords
  refine (Keeps.foldl (fun d die => ?_) _ _).after ?_
  · dsimp only
    repeat' split
    all_goals exact ⟨rfl, rfl, rfl, rfl⟩
  · split
    · exact keeps_endWindows
    · exact .refl d

@[simp] theorem keeps_takeTrigger {n : Nat} {tr : Option (Nat × Nat)} {d : Dev} : Keeps d (takeTrigger n tr d) := by
  unfold takeTrigger
  split
  · exact .refl d
  · dsimp only
    split <;> simp [Keeps]

@[simp] theorem keeps_advanceHamper {n : Nat} {d : Dev} : Keeps d (advanceHamper n d) := by
  unfold advanceHamper
  dsimp only
  repeat' split
  all_goals simp [Keeps]

@[simp] theorem keeps_holdTaps {d : Dev} : Keeps d (holdTaps d) := Keeps.foldl (fun _ _ => keeps_updTile) _ d

@[simp] theorem keeps_keepShown {n : Nat} {d : Dev} : Keeps d (keepShown n d) := by
  unfold keepShown
  split <;> exact .refl d

theorem keeps_captureBarrier {full : Bool} {n : Nat} {d : Dev} : Keeps d (captureBarrier full n d) := by
  unfold captureBarrier
  dsimp only
  repeat' split
  all_goals simp [Keeps]

/-! ## The trail -/

@[simp] theorem keeps_trailPut {die cycle : Nat} {ws : List W64} {d : Dev} : Keeps d (trailPut die cycle ws d) := by
  unfold trailPut
  split <;> exact .refl d

@[simp] theorem keeps_openCycle {n : Nat} {d : Dev} : Keeps d (openCycle n d) := by
  refine Keeps.foldl (fun d die => ?_) _ d
  split
  · exact .refl d
  · exact keeps_trailPut

theorem keeps_asmRecords {n : Nat} {d : Dev} : Keeps d (asmRecords n d) := by
  refine Keeps.foldl (fun d x => Keeps.foldl (fun d c => ?_) _ d) _ d
  dsimp only
  split
  · exact .refl d
  · exact Keeps.after keeps_updCluster keeps_trailPut

theorem keeps_countRecords {n : Nat} {d : Dev} : Keeps d (countRecords n d) := by
  refine Keeps.foldl (fun d x => Keeps.foldl (fun d y => ?_) _ d) _ d
  dsimp only
  split
  · exact .refl d
  · exact keeps_updCtx.after keeps_trailPut

/-- One round of the trailhead's advance. -/
theorem advanceHead_succ {k : Nat} {d : Dev} : advanceHead (k + 1) d =
    (let d := { d with trail := { d.trail with short := shortBits d } }
    if d.trail.short = 0 then d
    else match d.trail.ckpts.find? fun c => decide (d.trail.head < c.cycle) with
      | some c =>
        let d := moveHead c.cycle 1 d
        advanceHead k { d with trail := { d.trail with moved := d.trail.moved + 1 } }
      | none => d) := rfl

theorem keeps_advanceHead {k : Nat} {d : Dev} : Keeps d (advanceHead k d) := by
  induction k generalizing d with
  | zero => exact .refl d
  | succ k ih =>
    rw [advanceHead_succ]
    dsimp only
    split
    · exact ⟨rfl, rfl, rfl, rfl⟩
    · split
      · exact ih.after ⟨rfl, rfl, rfl, rfl⟩
      · exact ⟨rfl, rfl, rfl, rfl⟩

@[simp] theorem keeps_compose {n : Nat} {d : Dev} : Keeps d (compose n d) := .refl d

@[simp] theorem keeps_composeDue {n : Nat} {d : Dev} : Keeps d (composeDue n d) := by
  unfold composeDue
  split <;> exact .refl d

@[simp] theorem keeps_composeForced {n : Nat} {d : Dev} : Keeps d (composeForced n d) := by
  unfold composeForced
  dsimp only
  split <;> exact .refl d

theorem keeps_trailSpace {n : Nat} {d : Dev} : Keeps d (trailSpace n d).2 := by
  unfold trailSpace advance
  dsimp only
  repeat' split
  all_goals simp [Keeps, keeps_advanceHead]

/-! ## The exchange -/

theorem keeps_raiseExch {cont : Bool} {p c i sc step : Nat} {d : Dev} : Keeps d (raiseExch cont p c i sc step d) := by
  unfold raiseExch
  dsimp only
  refine keeps_registerStop.after (keeps_logEntry.after (Keeps.after (keeps_updTile fun T => ?_) ?_))
  · split <;> rfl
  · split <;> exact ⟨rfl, rfl, rfl, rfl⟩
  

theorem keeps_takeToken {p c i : Nat} {w : W64} {d : Dev} : Keeps d (takeToken p c i w d) := by
  unfold takeToken
  dsimp only
  split
  · refine Keeps.after keeps_updTile ?_
    split
    · exact .refl d
    · exact keeps_updPort
  · split
    · exact keeps_raiseExch
    · split
      · exact keeps_raiseExch.after (keeps_updPort.after keeps_updTile)
      · exact keeps_updPort.after keeps_updTile

theorem keeps_takePin {pin : Nat} {enable v : Bool} {d : Dev} : Keeps d (takePin pin enable v d) := ⟨rfl, rfl, rfl, rfl⟩

theorem keeps_takeBankMark {b key h : Nat} {d : Dev} : Keeps d (takeBankMark b key h d) := by
  unfold takeBankMark
  split
  · exact .refl d
  · refine Keeps.foldl (fun d x => ?_) _ d
    dsimp only
    split <;> exact ⟨rfl, rfl, rfl, rfl⟩

theorem keeps_dropAtBorder {f : Flit} {d : Dev} : Keeps d (dropAtBorder f d) := by
  unfold dropAtBorder
  split
  · exact .refl d
  · exact Keeps.after keeps_updTile ⟨rfl, rfl, rfl, rfl⟩

theorem keeps_deliver {f : Flit} {d : Dev} : Keeps d (deliver f d) := by
  unfold deliver
  split
  · split
    · exact keeps_takeToken
    · exact keeps_dropAtBorder
  · exact keeps_takePin
  · exact keeps_takePin
  · split
    · exact keeps_updTile
    · exact keeps_dropAtBorder
  · exact keeps_takeBankMark

theorem keeps_deliverFirst {n : Nat} {d : Dev} : Keeps d (deliverFirst n d) := by
  induction n generalizing d with
  | zero => exact .refl d
  | succ n ih =>
    unfold deliverFirst
    split
    · exact .refl d
    · exact ih.after (keeps_deliver.after ⟨rfl, rfl, rfl, rfl⟩)

theorem keeps_drainMesh {d : Dev} : Keeps d (drainMesh d) := keeps_deliverFirst

theorem keeps_sendOwed {d : Dev} : Keeps d (sendOwed d) := by
  unfold sendOwed
  dsimp only
  refine Keeps.after (Keeps.foldl (fun d x => ?_) _ _) (Keeps.after (Keeps.foldl (fun d x => ?_) _ _) ?_)
  · exact ⟨rfl, rfl, rfl, rfl⟩
  · split
    · exact keeps_takeToken
    · exact .refl d
  · exact ⟨rfl, rfl, rfl, rfl⟩

theorem keeps_raiseLink {lane : Nat} {d : Dev} : Keeps d (raiseLink lane d) := by
  unfold raiseLink
  dsimp only
  split <;> exact ⟨rfl, rfl, rfl, rfl⟩

theorem keeps_beginCycle {d : Dev} : Keeps d (beginCycle d) := (Keeps.foldl (fun _ _ => keeps_raiseLink) _ _).after keeps_sendOwed


/-! ## Queue controllers -/

theorem keeps_raiseBounds {p c cause n : Nat} {r : Req} {d : Dev} : Keeps d (raiseBounds p c cause n r d) := by
  unfold raiseBounds
  dsimp only
  refine keeps_registerStop.after (keeps_logEntry.after (Keeps.after keeps_updTile ?_))
  split <;> exact ⟨rfl, rfl, rfl, rfl⟩

theorem keeps_performWrite {p q : Nat} {g : CtxCfg} {e : QEnt} {d : Dev} : Keeps d (performWrite p q g e d) := by
  unfold performWrite
  dsimp only
  split
  · exact Keeps.after keeps_updTile keeps_trailPut
  · exact Keeps.after ⟨rfl, rfl, rfl, rfl⟩ keeps_trailPut

theorem keeps_serveOne {drain : Bool} {p q : Nat} {d : Dev} : Keeps d (serveOne drain p q d) := by
  unfold serveOne
  dsimp only
  split
  · exact .refl d
  split
  · exact .refl d
  split
  · exact keeps_updCtx
  split
  · exact keeps_raiseBounds.after keeps_updCtx
  split
  · refine keeps_updCtx.after ?_
    split
    · exact .refl d
    · exact keeps_performWrite
  · refine keeps_updCtx.after ?_
    split
    · exact .refl d
    · exact keeps_performWrite
  · split
    · exact keeps_updCtx
    · exact keeps_updCtx.after ⟨rfl, rfl, rfl, rfl⟩
  · exact keeps_updCtx
  · split
    · exact .refl d
    split
    · exact .refl d
    · refine keeps_updCtx.after ?_
      split <;> exact ⟨rfl, rfl, rfl, rfl⟩

theorem keeps_drainCtx {p q k : Nat} {d : Dev} : Keeps d (drainCtx p q k d) := by
  induction k generalizing d with
  | zero => exact .refl d
  | succ k ih => exact ih.after keeps_serveOne

theorem keeps_drainTile {p : Nat} {d : Dev} : Keeps d (drainTile p d) := Keeps.foldl (fun _ _ => keeps_drainCtx) _ d

/-! ## Pins -/

theorem keeps_landLevel {env : PinEnv} {mine : BitVec 256} {pin : Nat} {d : Dev} : Keeps d (landLevel env mine pin d).2 := by
  unfold landLevel
  dsimp only
  repeat' split
  all_goals exact ⟨rfl, rfl, rfl, rfl⟩

theorem keeps_samplePins {env : PinEnv} {d : Dev} : Keeps d (samplePins env d).2 := by
  unfold samplePins
  dsimp only
  generalize (0 : BitVec 256) = acc, driving d = mine
  induction bitsOf 256 (boundIn d).toNat generalizing acc d with
  | nil => exact .refl d
  | cons pin r ih => exact (ih _).after keeps_landLevel

theorem keeps_deliverSample {v : BitVec 256} {d : Dev} : Keeps d (deliverSample v d) := by
  refine Keeps.after (Keeps.foldl (fun d x => Keeps.foldl (fun d c => ?_) _ d) _ _) ⟨rfl, rfl, rfl, rfl⟩
  exact keeps_updCluster

theorem keeps_sampleFor {env : PinEnv} {n : Nat} {d : Dev} : Keeps d (sampleFor env n d) := by
  unfold sampleFor
  dsimp only
  split
  · refine keeps_deliverSample.after (Keeps.after (Keeps.foldl (fun d die => ?_) _ _) keeps_openCycle)
    split
    · exact keeps_trailPut
    · exact .refl d
  · refine keeps_deliverSample.after (Keeps.after ⟨rfl, rfl, rfl, rfl⟩ (Keeps.after (Keeps.foldl (fun d die => ?_) _ _)
      (keeps_samplePins.after keeps_openCycle)))
    split
    · exact keeps_trailPut
    · exact .refl d

/-- The values of the design cycle become the outputs. -/
theorem keeps_outputs {d : Dev} : Keeps d (applyDrive (outputPins d)) := ⟨rfl, rfl, rfl, rfl⟩


/-! ## Basket -/

@[simp] theorem keeps_readSlot {slot : Nat} {d : Dev} : Keeps d (readSlot slot d).2 := by
  unfold readSlot
  split
  · split
    · exact .refl d
    · exact keeps_engineCall
  · exact .refl d

@[simp] theorem keeps_putSlot {slot w be : Nat} {v : W64} {d : Dev} : Keeps d (putSlot slot w v be d) := by
  unfold putSlot
  split
  · split
    · exact .refl d
    · dsimp only
      split <;> simp [Keeps, putHbmBe]
  · exact .refl d

@[simp] theorem keeps_putW5 {x : Desc} {d : Dev} : Keeps d (putW5 x d) := keeps_putSlot
@[simp] theorem keeps_putLink {slot link : Nat} {d : Dev} : Keeps d (putLink slot link d) := keeps_putSlot
@[simp] theorem keeps_descTrace {kind : Nat} {x : Desc} {d : Dev} : Keeps d (descTrace kind x d) := keeps_trace
@[simp] theorem keeps_bktTrace {kind prio port flow slot : Nat} {d : Dev} : Keeps d (bktTrace kind prio port flow slot d) :=
  keeps_trace

@[simp] theorem keeps_bktWaits {d : Dev} : Keeps d (bktWaits d) := by
  unfold bktWaits
  split <;> exact .refl d

@[simp] theorem keeps_settleFlow {flow : Nat} {d : Dev} : Keeps d (settleFlow flow d) := by
  unfold settleFlow
  repeat' split
  all_goals simp [Keeps]

@[simp] theorem keeps_updDesc {slot : Nat} {f : Desc → Desc} {d : Dev} : Keeps d (updDesc slot f d) := by
  unfold updDesc
  split
  · exact .refl d
  · exact keeps_putW5.after ⟨rfl, rfl, rfl, rfl⟩

theorem keeps_refuseSlot {slot code : Nat} {d : Dev} : Keeps d (refuseSlot slot code d) := by
  simp [Keeps, refuseSlot]

theorem keeps_acceptSlot {slot : Nat} {d : Dev} : Keeps d (acceptSlot slot d) := by
  unfold acceptSlot
  refine keeps_settleFlow.after (keeps_descTrace.after (keeps_putW5.after (Keeps.after ⟨rfl, rfl, rfl, rfl⟩ ?_)))
  dsimp only
  split
  · exact keeps_putLink
  · exact .refl d

theorem keeps_submitSlot {slot : Nat} {d : Dev} : Keeps d (submitSlot slot d).2 := by
  unfold submitSlot
  dsimp only
  split
  · exact keeps_refuseSlot
  · generalize checkSlot _ _ _ = code
    dsimp only
    split
    · exact keeps_acceptSlot.after keeps_readSlot
    · exact keeps_refuseSlot.after keeps_readSlot

theorem keeps_putResponse {c : Cmd} {reason : Nat} {data : List W64} {d : Dev} : Keeps d (putResponse c reason data d) := by
  unfold putResponse sendTwin
  dsimp only
  repeat' split
  all_goals exact ⟨rfl, rfl, rfl, rfl⟩

theorem keeps_endSubmit {accepted code : Nat} {d : Dev} : Keeps d (endSubmit accepted code d) := by
  unfold endSubmit
  split
  · split
    · exact keeps_putResponse.after ⟨rfl, rfl, rfl, rfl⟩
    · exact .refl d
  · exact .refl d

@[simp] theorem keeps_undoDelivery {x : Desc} {d : Dev} : Keeps d (undoDelivery x d) := by
  unfold undoDelivery
  split <;> simp [Keeps]

theorem keeps_giveBack {slot : Nat} {d : Dev} : Keeps d (giveBack slot d) := by
  unfold giveBack
  split <;> simp [Keeps]

theorem keeps_nextDecision {j : BktJob} {rest : List BktJob} {d : Dev} : Keeps d (nextDecision j rest d) := by
  unfold nextDecision
  split
  · exact keeps_giveBack.after ⟨rfl, rfl, rfl, rfl⟩
  · dsimp only
    split
    · exact Keeps.after ⟨rfl, rfl, rfl, rfl⟩ keeps_submitSlot
    · split
      · exact keeps_endSubmit.after (Keeps.after ⟨rfl, rfl, rfl, rfl⟩ keeps_submitSlot)
      · exact Keeps.after ⟨rfl, rfl, rfl, rfl⟩ keeps_submitSlot

theorem keeps_runJobs {k : Nat} {d : Dev} : Keeps d (runJobs k d) := by
  induction k generalizing d with
  | zero => exact .refl d
  | succ k ih =>
    unfold runJobs
    split
    · exact .refl d
    split
    · exact .refl d
    · refine ih.after ?_
      split
      · exact keeps_nextDecision
      · exact keeps_bktWaits.after keeps_nextDecision

theorem keeps_bktGoOn {d : Dev} : Keeps d (bktGoOn d) := keeps_runJobs

theorem keeps_putItem {p q flow : Nat} {v : W64} {d : Dev} : Keeps d (putItem p q flow v d) :=
  Keeps.after ⟨rfl, rfl, rfl, rfl⟩ (keeps_trailPut.after (keeps_openCycle.after keeps_updCtx))

theorem keeps_markDelivered {x : Desc} {d : Dev} : Keeps d (markDelivered x d) := by
  simp [Keeps, markDelivered]

theorem keeps_aloneTrace {port flow : Nat} {d : Dev} : Keeps d (aloneTrace port flow d) :=
  keeps_bktTrace.after ⟨rfl, rfl, rfl, rfl⟩

theorem keeps_replayItem {p q port flow : Nat} {item : W64} {d : Dev} : Keeps d (replayItem p q port flow item d) := by
  unfold replayItem
  dsimp only
  split
  · exact keeps_putItem.after (keeps_aloneTrace.after ⟨rfl, rfl, rfl, rfl⟩)
  · split
    · refine keeps_putItem.after (keeps_aloneTrace.after ?_)
      split <;> exact ⟨rfl, rfl, rfl, rfl⟩
    · refine keeps_putItem.after (keeps_markDelivered.after ?_)
      split <;> exact ⟨rfl, rfl, rfl, rfl⟩

theorem keeps_release {slot : Nat} {d : Dev} : Keeps d (release slot d).2 := by
  unfold release
  repeat' split
  all_goals simp [Keeps]

@[simp] theorem keeps_releaseAll {l : List Nat} {d : Dev} : Keeps d (releaseAll l d).2 := by
  induction l generalizing d with
  | nil => exact .refl d
  | cons s r ih => exact ih.after keeps_release

theorem keeps_complete {port cycle : Nat} {v : W64} {d : Dev} : Keeps d (complete port cycle v d) := by
  unfold complete
  dsimp only
  repeat' split
  all_goals simp [Keeps]

theorem keeps_completeAll {l : List (Nat × Nat × W64)} {d : Dev} : Keeps d (completeAll l d) := by
  induction l generalizing d with
  | nil => exact .refl d
  | cons x r ih =>
    unfold completeAll
    split
    · exact keeps_bktWaits.after ⟨rfl, rfl, rfl, rfl⟩
    · exact ih.after keeps_complete

theorem keeps_applyStaged {n : Nat} {d : Dev} : Keeps d (applyStaged n d) := keeps_completeAll.after ⟨rfl, rfl, rfl, rfl⟩

theorem keeps_stageHeld {p q : Nat} {d : Dev} : Keeps d (stageHeld p q d) := by
  unfold stageHeld
  dsimp only
  split
  · exact .refl d
  split
  · exact .refl d
  split
  · exact .refl d
  · exact keeps_updCtx.after ⟨rfl, rfl, rfl, rfl⟩

theorem keeps_stageAllHeld {d : Dev} : Keeps d (stageAllHeld d) := by
  refine Keeps.foldl (fun d x => Keeps.foldl (fun d y => ?_) _ d) _ d
  dsimp only
  split
  · exact Keeps.foldl (fun _ _ => keeps_stageHeld) _ d
  · exact .refl d

theorem keeps_flushLogged {p q port k : Nat} {d : Dev} : Keeps d (flushLogged p q port k d) := by
  induction k generalizing d with
  | zero => exact .refl d
  | succ k ih =>
    unfold flushLogged
    split
    · split
      · exact keeps_bktWaits
      · exact ih.after keeps_replayItem
    · exact .refl d

theorem keeps_flushReplay {d : Dev} : Keeps d (flushReplay d) := by
  unfold flushReplay
  split
  · exact .refl d
  · have h (m n : Nat) : Keeps d (applyStaged n (stageAllHeld (applyStaged m (bktGoOn d)))) :=
      keeps_applyStaged.after (keeps_stageAllHeld.after (keeps_applyStaged.after keeps_bktGoOn))
    dsimp only
    split
    · exact h _ _
    · exact Keeps.after (Keeps.foldl (fun _ _ => keeps_flushLogged) _ _) (h _ _)

theorem keeps_raiseRing {d : Dev} : Keeps d (raiseRing d) := by
  unfold raiseRing
  split <;> exact ⟨rfl, rfl, rfl, rfl⟩

/-! ## The barrier but for its commit -/

theorem keeps_noteRewrite {p key line part : Nat} {d : Dev} : Keeps d (noteRewrite p key line part d) := by
  unfold noteRewrite
  dsimp only
  split <;> exact ⟨rfl, rfl, rfl, rfl⟩

theorem keeps_countCommitFixes {d : Dev} : Keeps d (countCommitFixes d) := by
  refine Keeps.foldl (fun d x => Keeps.foldl (fun d c => ?_) _ d) _ d
  dsimp only
  split
  · exact .refl d
  · refine Keeps.after (Keeps.foldl (fun d y => ?_) _ _) keeps_updTile
    exact keeps_noteRewrite

theorem keeps_collect {n : Nat} {d : Dev} : Keeps d (collect n d) := by
  refine Keeps.after (d' := recordHalts d) ?_ keeps_recordHalts
  unfold collect
  generalize recordHalts d = d
  exact ⟨rfl, rfl, rfl, rfl⟩

theorem keeps_exchBarrier {d : Dev} : Keeps d (exchBarrier d) := by
  unfold exchBarrier
  refine ⟨rfl, rfl, rfl, funext fun p => ?_⟩
  unfold commitViews
  dsimp only
  refine tget_foldl_tupd_view (view := commitView) (key := Prod.fst) fun T => ?_
  refine commitView_congr rfl rfl fun c => ?_
  unfold clusterOf
  dsimp only
  refine tget_foldl_tupd_view (view := Cluster.bps) (key := id) fun C => ?_
  rfl

theorem keeps_takePace {d : Dev} : Keeps d (takePace d) := by
  unfold takePace
  dsimp only
  split <;> exact ⟨rfl, rfl, rfl, rfl⟩

theorem keeps_stopHere {d : Dev} : Keeps d (stopHere d) :=
  keeps_setCauses.after (keeps_enterState.after ⟨rfl, rfl, rfl, rfl⟩)

theorem keeps_resume {d : Dev} : Keeps d (resume d) := by
  unfold resume
  split
  · exact .refl d
  · refine keeps_beginCycle.after ?_
    split <;> exact ⟨rfl, rfl, rfl, rfl⟩


/-! ## Regions that leave ACTIVE at the barrier -/

/-- A change of the module in which no tile's view changes and no region begins to wait for a rejoin. -/
abbrev KeepsRows (d d' : Dev) : Prop :=
  commitViews d'.tiles = commitViews d.tiles ∧ ∀ r, (regionOf d' r).rejoin = true → (regionOf d r).rejoin = true

theorem KeepsRows.refl (d : Dev) : KeepsRows d d := ⟨rfl, fun _ => id⟩

theorem KeepsRows.after {d d' d'' : Dev} (h' : KeepsRows d' d'') (h : KeepsRows d d') : KeepsRows d d'' :=
  ⟨h'.1.trans h.1, fun r hr => h.2 r (h'.2 r hr)⟩

theorem KeepsRows.foldl {κ : Type} {f : Dev → κ → Dev} (h : ∀ d x, KeepsRows d (f d x)) (l : List κ) (d : Dev) :
    KeepsRows d (l.foldl f d) := by
  induction l generalizing d with
  | nil => exact .refl d
  | cons x r ih => exact (ih (f d x)).after (h d x)

theorem Keeps.rows {d d' : Dev} (h : Keeps d d') : KeepsRows d d' := by
  refine ⟨h.views, fun r => ?_⟩
  rw [regionOf, h.regions]
  exact id

theorem keepsRows_updRegion {d : Dev} {r : Nat} {f : Region → Region} (h : ∀ R, (f R).rejoin = true → R.rejoin = true) :
    KeepsRows d (updRegion d r f) := by
  refine ⟨rfl, fun q => ?_⟩
  unfold regionOf updRegion tupd
  rw [tget_tset]
  split
  · subst_vars; exact h _
  · exact id

theorem keepsRows_leaveActive {st : RegionSt} {r : Nat} {d : Dev} : KeepsRows d (leaveActive st r d) :=
  keepsRows_updRegion fun _ => id

theorem keepsRows_tearRegion {reason r : Nat} {w : Option (W64 × W64)} {d : Dev} : KeepsRows d (tearRegion reason r w d) := by
  unfold tearRegion
  refine KeepsRows.after (keepsRows_updRegion fun _ => id) (keepsRows_leaveActive.after ?_)
  split
  · exact .refl d
  · exact keeps_logEntry.rows

theorem keepsRows_tearPending {d : Dev} : KeepsRows d (tearPending d) := by
  refine KeepsRows.foldl (fun d r => ?_) _ d
  dsimp only
  split
  · exact KeepsRows.after (keepsRows_updRegion fun _ h => nomatch h) keepsRows_tearRegion
  · exact .refl d

theorem keeps_oweRefresh {r : Nat} {d : Dev} : Keeps d (oweRefresh r d) := ⟨rfl, rfl, rfl, rfl⟩

theorem keepsRows_isolateRegion {r : Nat} {d : Dev} : KeepsRows d (isolateRegion r d) := by
  unfold isolateRegion
  dsimp only
  refine KeepsRows.after (Keeps.foldl (fun _ _ => keeps_updTile) _ _).rows
    (KeepsRows.after (keepsRows_updRegion fun _ h => nomatch h) (keepsRows_leaveActive.after ?_))
  have hd : Keeps d ((regionTiles d.fuse r).foldl (fun d p => drainTile p d) d) := .foldl (fun _ _ => keeps_drainTile) _ d
  split
  · exact (keeps_oweRefresh.after hd).rows
  · exact hd.rows

theorem keepsRows_isolateNamed {d : Dev} : KeepsRows d (isolateNamed d) := by
  unfold isolateNamed
  dsimp only
  generalize (List.range 32).filter _ = named
  have hd : KeepsRows d (named.foldl (fun d r => isolateRegion r d) d) := .foldl (fun _ _ => keepsRows_isolateRegion) _ d
  split <;> exact hd

/-- Without a region that waits, none rejoins. -/
theorem rejoinAll_eq_self {n : Nat} {d : Dev} (h : ∀ r, (regionOf d r).rejoin = false) : rejoinAll n d = d := by
  have : rejoining d = [] := by simp [rejoining, h]
  simp only [rejoinAll, this]

/-! ## The commit of one BP -/

theorem tileOf_updTile {d : Dev} {p q : Nat} {f : Tile → Tile} :
    tileOf (updTile d p f) q = if q = p then f (tileOf d p) else tileOf d q := tget_tset

theorem clusterOf_updCluster {T : Tile} {c k : Nat} {f : Cluster → Cluster} :
    clusterOf (T.updCluster c f) k = if k = c then f (clusterOf T c) else clusterOf T k := tget_tset

theorem tileOf_stores_updCluster {d : Dev} {p c q : Nat} {f : Cluster → Cluster} :
    (tileOf (updCluster d p c f) q).stores = (tileOf d q).stores := by
  unfold updCluster
  rw [tileOf_updTile]
  split
  · subst_vars; rfl
  · rfl

theorem clusterOf_tileOf_updCluster {d : Dev} {p c q k : Nat} {f : Cluster → Cluster} :
    clusterOf (tileOf (updCluster d p c f) q) k = if q = p ∧ k = c then f (clusterOf (tileOf d p) c) else clusterOf (tileOf d q) k := by
  unfold updCluster
  rw [tileOf_updTile]
  by_cases hq : q = p
  · subst hq
    simp [clusterOf_updCluster]
  · simp [hq]

/-- BP b of cluster c of tile p. -/
def bpAt (d : Dev) (p c b : Nat) : Bp := bpOf (clusterOf (tileOf d p) c) b

/-- What the commit of one BP reads is the same. -/
structure KeepsAt (p c b : Nat) (d d' : Dev) : Prop where
  image : d'.image = d.image
  stores : (tileOf d' p).stores = (tileOf d p).stores
  bp : bpAt d' p c b = bpAt d p c b

theorem KeepsAt.refl (p c b : Nat) (d : Dev) : KeepsAt p c b d d := ⟨rfl, rfl, rfl⟩

theorem KeepsAt.after {p c b : Nat} {d d' d'' : Dev} (h' : KeepsAt p c b d' d'') (h : KeepsAt p c b d d') : KeepsAt p c b d d'' :=
  ⟨h'.image.trans h.image, h'.stores.trans h.stores, h'.bp.trans h.bp⟩

theorem bpAt_of_commitViews {d d' : Dev} (h : commitViews d'.tiles = commitViews d.tiles) {p c b : Nat} : bpAt d' p c b = bpAt d p c b :=
  congrFun (congrFun (congrArg (·.2.2) (congrFun h p)) c) b

theorem Keeps.tileActive {d d' : Dev} (h : Keeps d d') {p : Nat} : tileActive d' p = tileActive d p := by
  have hp : (tileOf d' p).placed = (tileOf d p).placed := congrArg (·.1) (congrFun h.views p)
  unfold Machine.tileActive regionOf
  rw [h.fuse, h.regions, hp]

theorem Keeps.keepsAt {d d' : Dev} (h : Keeps d d') {p c b : Nat} : KeepsAt p c b d d' :=
  ⟨h.image, congrArg (·.2.1) (congrFun h.views p), bpAt_of_commitViews h.views⟩

/-! ## The entries of a BP -/

theorem getLsbD_setBit {n : Nat} {w : BitVec n} {i j : Nat} {v : Bool} (hi : i < n) :
    (setBit w i v).getLsbD j = if j = i then v else w.getLsbD j := by
  unfold setBit
  by_cases hj : j = i
  · subst hj
    cases v <;> simp [hi]
  · have hi' : decide (i = j) = false := decide_eq_false (Ne.symm hj)
    cases v with
    | true => simp [BitVec.getLsbD_twoPow, hj, hi']
    | false =>
      cases hw : w.getLsbD j with
      | true => simp [hj, hw, BitVec.lt_of_getLsbD hw]
      | false => simp [hj, hw]

/-- What slot k takes at the commit, from its entry's EN and SRC (R45). -/
abbrev slotValue (B : Bp) (k en src : Nat) : Bool := if opVal B en then opVal B src else B.sta.getLsbD k

/-- Entries that are all correctable commit. -/
theorem commitSta_ok {L : Nat} {B : Bp} {l : List (Nat × BitVec 32)} (h : ∀ x ∈ l, usedCommit L x.2 ≠ none) {sta : BitVec 256}
    {fixes : List Nat} : ∃ r, commitSta L B l sta fixes = .ok r := by
  induction l generalizing sta fixes with
  | nil => exact ⟨_, rfl⟩
  | cons x r ih =>
    obtain ⟨k, e⟩ := x
    obtain ⟨u, hu⟩ := Option.ne_none_iff_exists'.mp (h (k, e) (List.mem_cons_self ..))
    simp only [commitSta, hu]
    exact ih fun y hy => h y (List.mem_cons_of_mem _ hy)

/-- A slot after the commit of entries of which those of the slot agree. -/
theorem commitSta_getLsbD {L : Nat} {B : Bp} {l : List (Nat × BitVec 32)} {k en src : Nat} {fix : Bool}
    (hl : ∀ x ∈ l, x.1 < 256) (hk : ∀ x ∈ l, x.1 = k → usedCommit L x.2 = some (en, src, fix)) {sta sta' : BitVec 256}
    {fixes fixes' : List Nat} (h : commitSta L B l sta fixes = .ok (sta', fixes')) :
    sta'.getLsbD k = if k ∈ l.map (·.1) then slotValue B k en src else sta.getLsbD k := by
  induction l generalizing sta fixes with
  | nil =>
    cases h
    rfl
  | cons x r ih =>
    obtain ⟨i, e⟩ := x
    have hi : i < 256 := hl (i, e) (List.mem_cons_self ..)
    unfold commitSta at h
    split at h
    · cases h
    next en' src' fix' hu =>
      have hr := ih (fun y hy => hl y (List.mem_cons_of_mem _ hy)) (fun y hy => hk y (List.mem_cons_of_mem _ hy)) h
      rw [hr, getLsbD_setBit hi]
      by_cases hki : k = i
      · subst hki
        obtain ⟨rfl, rfl, rfl⟩ : en' = en ∧ src' = src ∧ fix' = fix := by
          simpa using hu.symm.trans (hk (k, e) (List.mem_cons_self ..) rfl)
        simp [slotValue]
      · simp [hki]

/-- An entry that is not stored is 0: it commits RES[0] where RES[0] is 1. -/
theorem usedCommit_zero {L : Nat} : usedCommit L 0 = some (0, 0, false) := rfl

/-- The commit of one entry (R45). -/
theorem commitSta_singleton {L : Nat} {B : Bp} {k en src : Nat} {fix : Bool} {e : BitVec 32}
    (hu : usedCommit L e = some (en, src, fix)) {sta : BitVec 256} {fixes : List Nat} :
    commitSta L B [(k, e)] sta fixes = .ok (setBit sta k (slotValue B k en src), if fix then fixes ++ [k] else fixes) := by
  simp only [commitSta, hu]

theorem tget_of_mem {α : Type} {d : α} {t : Tbl α} (ht : (t.map (·.1)).Nodup) {i : Nat} {x : α} (h : (i, x) ∈ t) : tget d t i = x := by
  induction t with
  | nil => cases h
  | cons a r ih =>
    obtain ⟨k, v⟩ := a
    rw [List.map_cons, List.nodup_cons] at ht
    unfold tget
    rcases List.mem_cons.mp h with h | h
    · cases h; simp
    · have : i ≠ k := fun e => ht.1 (e ▸ List.mem_map_of_mem (f := (·.1)) h)
      simp [this, ih ht.2 h]

theorem tget_of_not_mem {α : Type} {d : α} {t : Tbl α} {i : Nat} (h : i ∉ t.map (·.1)) : tget d t i = d := by
  induction t with
  | nil => rfl
  | cons a r ih =>
    obtain ⟨k, v⟩ := a
    rw [List.map_cons, List.mem_cons, not_or] at h
    simp [tget, h.1, ih h.2]

theorem mem_commitEntries {T : Tile} {c b : Nat} {x : Nat × BitVec 32} :
    x ∈ commitEntries T c b ↔ ∃ i l j, (i, l) ∈ storeOf T kCOMMIT c ∧ i / 64 = b ∧ j < 4 ∧
      x = (i % 64 * 4 + j, (l >>> (32 * j)).setWidth 32) := by
  unfold commitEntries
  simp only [List.mem_flatMap, Prod.exists]
  refine exists_congr fun i => exists_congr fun l => ?_
  split <;> simp_all [eq_comm]

/-- The commit stands on the stores alone. -/
theorem commitEntries_congr {T T' : Tile} (h : T'.stores = T.stores) (c b : Nat) : commitEntries T' c b = commitEntries T c b := by
  simp only [commitEntries, storeOf, h]

/-- In a cluster without an uncorrectable entry every stored one can be used. -/
theorem usedCommit_of_badCommit {T : Tile} {c L : Nat} (h : badCommit T c L = none) {i : Nat} {l : BitVec 128}
    (hl : (i, l) ∈ storeOf T kCOMMIT c) {j : Nat} (hj : j < 4) : usedCommit L ((l >>> (32 * j)).setWidth 32) ≠ none := by
  unfold badCommit at h
  rw [List.findSome?_eq_none_iff] at h
  have := h (i, l) hl
  simp only [Option.map_eq_none_iff, List.find?_eq_none] at this
  simpa using this j (by simpa using hj)

theorem badCommit_of_badCommits {d : Dev} (h : badCommits d = []) {p c : Nat} (hp : p < 528) (ha : tileActive d p = true)
    (hc : c < 16) : badCommit (tileOf d p) c d.image.l = none := by
  unfold badCommits activeTiles at h
  simp only [List.flatMap_eq_nil_iff, List.filterMap_eq_nil_iff, List.mem_map, List.mem_filter, List.mem_range] at h
  simpa using h (p, tileOf d p) ⟨p, ⟨hp, ha⟩, rfl⟩ c hc

/-- The entries of slot k that a BP stores are that of its line. -/
theorem eq_commitEntry {T : Tile} {c b k : Nat} (hn : ((storeOf T kCOMMIT c).map (·.1)).Nodup) {x : Nat × BitVec 32}
    (hx : x ∈ commitEntries T c b) (hk : x.1 = k) : x.2 = commitEntry T c b k := by
  obtain ⟨i, l, j, hl, rfl, hj, rfl⟩ := mem_commitEntries.mp hx
  have hi : i / 64 * 64 + k / 4 = i := by dsimp only at hk; omega
  have hj : k % 4 = j := by dsimp only at hk; omega
  unfold commitEntry lineOf
  rw [hi, hj, tget_of_mem hn hl]

/-- A slot without a stored entry has the entry 0. -/
theorem commitEntry_of_not_mem {T : Tile} {c b k : Nat} (hk : k < 256) (h : k ∉ (commitEntries T c b).map (·.1)) :
    commitEntry T c b k = 0 := by
  have : b * 64 + k / 4 ∉ (storeOf T kCOMMIT c).map (·.1) := by
    intro hm
    obtain ⟨⟨i, l⟩, hl, hi⟩ := List.mem_map.mp hm
    dsimp only at hi
    refine h (List.mem_map.mpr ⟨_, mem_commitEntries.mpr ⟨i, l, k % 4, hl, by omega, by omega, rfl⟩, ?_⟩)
    dsimp only
    omega
  unfold commitEntry lineOf
  rw [tget_of_not_mem this]
  simp

/-- The commit of a BP, at one entry: the entry can be used, and the slot takes what R45 says. -/
theorem bpCommit_getLsbD {T : Tile} {c b L k : Nat} {B : Bp} (hbad : badCommit T c L = none)
    (hn : ((storeOf T kCOMMIT c).map (·.1)).Nodup) (hk : k < 256) {sta : BitVec 256} {fixes : List Nat}
    (h : bpCommit T c b L B = .ok (sta, fixes)) :
    ∃ en src fix, usedCommit L (commitEntry T c b k) = some (en, src, fix) ∧ sta.getLsbD k = slotValue B k en src := by
  have hlt : ∀ x ∈ commitEntries T c b, x.1 < 256 := by
    intro x hx
    obtain ⟨i, l, j, -, -, hj, rfl⟩ := mem_commitEntries.mp hx
    dsimp only
    omega
  by_cases hm : k ∈ (commitEntries T c b).map (·.1)
  · obtain ⟨x, hx, hxk⟩ := List.mem_map.mp hm
    obtain ⟨⟨en, src, fix⟩, hu⟩ : ∃ u, usedCommit L x.2 = some u := by
      obtain ⟨i, l, j, hl, -, hj, rfl⟩ := mem_commitEntries.mp hx
      exact Option.ne_none_iff_exists'.mp (usedCommit_of_badCommit hbad hl hj)
    rw [eq_commitEntry hn hx hxk] at hu
    refine ⟨en, src, fix, hu, ?_⟩
    rw [commitSta_getLsbD hlt (fun y hy hyk => by rw [eq_commitEntry hn hy hyk, hu]) h, if_pos hm]
  · refine ⟨0, 0, false, by rw [commitEntry_of_not_mem hk hm, usedCommit_zero], ?_⟩
    rw [commitSta_getLsbD (k := k) (en := 0) (src := 0) (fix := false) hlt
      (fun y hy hyk => absurd (List.mem_map.mpr ⟨y, hy, hyk⟩) hm) h, if_neg hm]
    have hv : slotValue B k 0 0 = if B.res.getLsbD 0 then B.res.getLsbD 0 else B.sta.getLsbD k := rfl
    have hones : (~~~(0 : BitVec 256)).getLsbD k = true := by
      rw [BitVec.getLsbD_not]
      simp [hk]
    rw [hv]
    split
    next hr => rw [hones, hr]
    · rfl

theorem bpCommit_ok {T : Tile} {c L : Nat} (h : badCommit T c L = none) (b : Nat) (B : Bp) :
    ∃ sta fixes, bpCommit T c b L B = .ok (sta, fixes) := by
  obtain ⟨⟨sta, fixes⟩, hr⟩ := commitSta_ok (L := L) (B := B) (l := commitEntries T c b) (fun x hx => by
    obtain ⟨i, l, j, hl, -, hj, rfl⟩ := mem_commitEntries.mp hx
    exact usedCommit_of_badCommit h hl hj)
  exact ⟨sta, fixes, hr⟩

/-! ## The commit of every BP -/

/-- The BP commits to the rows B'. -/
def CommitsTo (p c b : Nat) (B' : Bp) (d : Dev) : Prop :=
  ∃ sta fixes, bpCommit (tileOf d p) c b d.image.l (bpAt d p c b) = .ok (sta, fixes) ∧ committedBp d.image.l sta (bpAt d p c b) = B'

theorem KeepsAt.commitsTo {p c b : Nat} {B' : Bp} {d d' : Dev} (h : KeepsAt p c b d d') (hc : CommitsTo p c b B' d) :
    CommitsTo p c b B' d' := by
  obtain ⟨sta, fixes, hok, hB⟩ := hc
  refine ⟨sta, fixes, ?_, by rw [h.image, h.bp, hB]⟩
  rw [← hok, h.image, h.bp]
  unfold bpCommit
  rw [commitEntries_congr h.stores]

/-- Updates that keep the BP, in a row. -/
theorem KeepsAt.foldl {p c b : Nat} {κ : Type} {f : Dev → κ → Dev} {l : List κ} (h : ∀ d, ∀ x ∈ l, KeepsAt p c b d (f d x)) (d : Dev) :
    KeepsAt p c b d (l.foldl f d) := by
  induction l generalizing d with
  | nil => exact .refl ..
  | cons x r ih => exact (ih (fun d y hy => h d y (List.mem_cons_of_mem _ hy)) _).after (h d x (List.mem_cons_self ..))

/-- Where one of several updates, each of another key, commits the BP and the others keep it, all of them commit it. -/
theorem foldl_commits {p c b : Nat} {B' : Bp} {κ : Type} {f : Dev → κ → Dev} {l : List κ} (key : κ → Nat) {k : κ} (hk : k ∈ l)
    (hl : (l.map key).Nodup) (hne : ∀ d x, key x ≠ key k → KeepsAt p c b d (f d x))
    (hstep : ∀ d, CommitsTo p c b B' d → bpAt (f d k) p c b = B') {d : Dev} (h : CommitsTo p c b B' d) :
    bpAt (l.foldl f d) p c b = B' := by
  induction l generalizing d with
  | nil => cases hk
  | cons x r ih =>
    rw [List.map_cons, List.nodup_cons] at hl
    obtain ⟨hx, hr⟩ := hl
    rcases List.mem_cons.mp hk with rfl | hk
    · have := KeepsAt.foldl (f := f) (l := r) (fun d y hy => hne d y fun e => hx (e ▸ List.mem_map_of_mem hy)) (f d k)
      exact this.bp.trans (hstep d h)
    · exact ih hk hr ((hne d x fun e => hx (e ▸ List.mem_map_of_mem hk)).commitsTo h)

/-- A change of a cluster that is not the BP's, or leaves the BP as it is. -/
theorem keepsAt_updCluster {p c b p' c' : Nat} {f : Cluster → Cluster} {d : Dev}
    (h : p = p' → c = c' → ∀ C, bpOf (f C) b = bpOf C b) : KeepsAt p c b d (updCluster d p' c' f) := by
  refine ⟨rfl, tileOf_stores_updCluster, ?_⟩
  unfold bpAt
  rw [clusterOf_tileOf_updCluster]
  split
  next e =>
    obtain ⟨rfl, rfl⟩ := e
    exact h rfl rfl _
  · rfl

theorem bpOf_tset {C : Cluster} {b b' : Nat} {B : Bp} :
    bpOf { C with bps := tset Bp.reset C.bps b B } b' = if b' = b then B else bpOf C b' := tget_tset

/-- The commit of another BP. -/
theorem keepsAt_commitBp {p c b p' c' b' n : Nat} (h : p ≠ p' ∨ c ≠ c' ∨ b ≠ b') {d : Dev} : KeepsAt p c b d (commitBp p' c' b' n d) := by
  have hu (sta : BitVec 256) (L : Nat) (B : Bp) : KeepsAt p c b d (updCluster d p' c' fun C =>
      { C with bps := tset Bp.reset C.bps b' (committedBp L sta B) }) :=
    keepsAt_updCluster fun hp hc C => by
      rw [bpOf_tset, if_neg (h.elim (absurd hp) fun h => h.elim (absurd hc) id)]
  unfold commitBp
  dsimp only
  split
  · exact .refl ..
  · split
    · exact hu ..
    · exact keeps_trailPut.keepsAt.after (hu ..)

/-- The commit of the BP itself. -/
theorem bpAt_commitBp {p c b n : Nat} {B' : Bp} {d : Dev} (h : CommitsTo p c b B' d) : bpAt (commitBp p c b n d) p c b = B' := by
  obtain ⟨sta, fixes, hok, rfl⟩ := h
  have hu : bpAt (updCluster d p c fun C => { C with bps := tset Bp.reset C.bps b (committedBp d.image.l sta (bpAt d p c b)) }) p c b
      = committedBp d.image.l sta (bpAt d p c b) := by
    rw [bpAt, clusterOf_tileOf_updCluster, if_pos ⟨rfl, rfl⟩, bpOf_tset, if_pos rfl]
  unfold commitBp
  dsimp only
  unfold bpAt at hok
  rw [hok]
  dsimp only
  split
  · exact hu
  · exact (bpAt_of_commitViews keeps_trailPut.views).trans hu

/-- A change bit is set exactly when the slot's value changed. -/
theorem changeBit_iff {L k : Nat} {sta : BitVec 256} {B : Bp} : (committedBp L sta B).staChg.getLsbD k = true ↔
    (committedBp L sta B).sta.getLsbD k ≠ B.sta.getLsbD k := by
  simp only [committedBp, BitVec.getLsbD_xor, bne_iff_ne]

theorem res_reset {i : Nat} : Bp.reset.res.getLsbD i = false := BitVec.getLsbD_zero

theorem committedBp_reset {L : Nat} : committedBp L Bp.reset.sta Bp.reset = Bp.reset := by
  unfold committedBp
  rw [res_reset]
  rfl

/-- A BP without rows and entries commits to what it is. -/
theorem CommitsTo.of_not_mem {p c b : Nat} {B' : Bp} {d : Dev} (h : CommitsTo p c b B' d) (hb : b < 64)
    (hn : b ∉ commitBps (tileOf d p) c) : bpAt d p c b = B' := by
  obtain ⟨sta, fixes, hok, rfl⟩ := h
  simp only [commitBps, List.mem_filter, List.mem_range, hb, true_and, Bool.or_eq_true, List.any_eq_true, decide_eq_true_eq,
    not_or, not_exists, not_and] at hn
  obtain ⟨hrows, hlines⟩ := hn
  have hB : bpAt d p c b = Bp.reset := tget_of_not_mem fun hm => by
    obtain ⟨x, hx, hxb⟩ := List.mem_map.mp hm
    exact hrows x hx hxb
  have he : commitEntries (tileOf d p) c b = [] := List.eq_nil_iff_forall_not_mem.mpr fun x hx => by
    obtain ⟨i, l, j, hl, hi, -, -⟩ := mem_commitEntries.mp hx
    exact hlines (i, l) hl hi
  unfold bpCommit at hok
  rw [he, hB, res_reset] at hok
  cases hok
  rw [hB]
  exact committedBp_reset.symm

/-- The commit of the BPs of a cluster. -/
theorem bpAt_commitBps {p c b n : Nat} {B' : Bp} {d : Dev} (h : CommitsTo p c b B' d) (hb : b < 64) :
    bpAt ((commitBps (tileOf d p) c).foldl (fun d b => commitBp p c b n d) d) p c b = B' := by
  by_cases hm : b ∈ commitBps (tileOf d p) c
  · refine foldl_commits id hm ?_ (fun d x hx => keepsAt_commitBp (.inr (.inr (Ne.symm hx)))) (fun d => bpAt_commitBp) h
    rw [List.map_id]
    exact List.nodup_range.filter _
  · have := KeepsAt.foldl (p := p) (c := c) (b := b) (f := fun d b => commitBp p c b n d) (l := commitBps (tileOf d p) c)
      (fun d x hx => keepsAt_commitBp (.inr (.inr fun e => hm (by rwa [e])))) d
    exact this.bp.trans (h.of_not_mem hb hm)

/-- The commit of every ACTIVE region, at one of its BPs. -/
theorem bpAt_commitAll {p c b n : Nat} {B' : Bp} {d : Dev} (hp : p < 528) (ha : tileActive d p = true) (hc : c < 16) (hb : b < 64)
    (h : CommitsTo p c b B' d) : bpAt (commitAll n d) p c b = B' := by
  have hcell {q k : Nat} {d : Dev} : KeepsAt p c b d (updCluster d q k fun C =>
      { C with step := 0, begun := false, done := false, fetched := false, fireHeld := false, window := 0 }) :=
    keepsAt_updCluster fun _ _ _ => rfl
  have hpass {q : Nat} {d : Dev} {full : Bool} :
      KeepsAt p c b d (if full then updTile d q fun T => { T with fullPasses := T.fullPasses + 1 } else d) := by
    split
    · exact Keeps.keepsAt keeps_updTile
    · exact .refl ..
  have hmem : (p, tileOf d p) ∈ activeTiles d :=
    List.mem_map.mpr ⟨p, List.mem_filter.mpr ⟨List.mem_range.mpr hp, ha⟩, rfl⟩
  unfold commitAll
  refine foldl_commits (k := (p, tileOf d p)) Prod.fst hmem ?_ (fun d₁ x hx => ?_) (fun d₁ h₁ => ?_) h
  · simp only [activeTiles, List.map_map, Function.comp_def, List.map_id']
    exact List.nodup_range.filter _
  · refine hpass.after (KeepsAt.foldl (fun d₂ k _ => hcell.after (KeepsAt.foldl (fun d₃ y _ => ?_) _)) _)
    exact keepsAt_commitBp (.inl (Ne.symm hx))
  · refine hpass.bp.trans (foldl_commits (k := c) id (List.mem_range.mpr hc)
      (by rw [List.map_id]; exact List.nodup_range)
      (fun d₂ k hk => hcell.after (KeepsAt.foldl (fun d₃ y _ => ?_) _)) (fun d₂ h₂ => ?_) h₁)
    · exact keepsAt_commitBp (.inr (.inl (Ne.symm hk)))
    · exact hcell.bp.trans (bpAt_commitBps h₂ hb)

/-- A part of the module that each of several updates keeps. -/
theorem foldl_part {κ β : Type} {part : Dev → β} {f : Dev → κ → Dev} (h : ∀ d x, part (f d x) = part d) (l : List κ) (d : Dev) :
    part (l.foldl f d) = part d := by
  induction l generalizing d with
  | nil => rfl
  | cons x r ih => exact (ih (f d x)).trans (h d x)

theorem regions_commitBp {p c b n : Nat} {d : Dev} : (commitBp p c b n d).regions = d.regions := by
  unfold commitBp
  dsimp only
  split
  · rfl
  · split <;> simp

theorem regions_commitAll {n : Nat} {d : Dev} : (commitAll n d).regions = d.regions := by
  unfold commitAll
  refine foldl_part (part := Dev.regions) (fun d x => ?_) _ d
  have hc (p : Nat) (l : List Nat) : (l.foldl (fun d c =>
      updCluster ((commitBps (tileOf d p) c).foldl (fun d b => commitBp p c b n d) d) p c fun C =>
        { C with step := 0, begun := false, done := false, fetched := false, fireHeld := false, window := 0 }) d).regions
        = d.regions := by
    refine foldl_part (part := Dev.regions) (fun d c => ?_) l d
    rw [updCluster_regions]
    exact foldl_part (part := Dev.regions) (fun _ _ => regions_commitBp) _ d
  dsimp only
  split
  · rw [updTile_regions]
    exact hc ..
  · exact hc ..

/-! ## The barrier -/

/-- What the barrier does before it commits. -/
def beforeCommit (n : Nat) (d : Dev) : Dev := countRecords n (asmRecords n (captureBarrier d.run.fullPass n (collect n d)))

theorem keeps_beforeCommit {n : Nat} {d : Dev} : Keeps d (beforeCommit n d) :=
  keeps_countRecords.after (keeps_asmRecords.after (keeps_captureBarrier.after keeps_collect))

/-- What it does from its commit to the design cycle's end, and whether a sub-ring is short. -/
def afterCommit (env : PinEnv) (n : Nat) (d : Dev) : Bool × Dev :=
  let old := d.tio.sample
  let d := sampleFor env (n + 1) { d with trail := { d.trail with pinsOld := old } }
  let d := applyDrive (outputPins (exchBarrier d))
  let d := { d with run := { d.run with committed := n, progress := (d.run.progress + 1) % 2 ^ 48
                                        paceCommits := d.run.paceCommits + 1 }
                    clk := { d.clk with failBarrier := false } }
  let d := if bit d.trc.srcEn 10 then traceRun 4 0 d else d
  let (short, d) := trailSpace n (raiseRing { d with bkt := { d.bkt with ringDue := true } })
  (short, isolateNamed (tearPending (takePace d)))

/-- A stop, or the start of the next design cycle. -/
def nextCycle (n : Nat) (short : Bool) (d : Dev) : Dev :=
  if d.run.reqs ≠ 0 then stopHere d
  else
    let d := rejoinAll n d
    let d := { d with run := { d.run with fullPass := d.run.fullNext, fullNext := false } }
    resume (setHold short (decide (d.run.capTicks < paceDue d)) d)

theorem endCycle_eq {env : PinEnv} {n : Nat} {d : Dev} : endCycle env n d =
    nextCycle n (afterCommit env n (commitAll n (beforeCommit n d))).1 (afterCommit env n (commitAll n (beforeCommit n d))).2 := by
  unfold endCycle nextCycle afterCommit beforeCommit
  dsimp only

theorem keepsRows_afterCommit {env : PinEnv} {n : Nat} {d : Dev} : KeepsRows d (afterCommit env n d).2 := by
  have hs : Keeps d (applyDrive (outputPins (exchBarrier (sampleFor env (n + 1)
      { d with trail := { d.trail with pinsOld := d.tio.sample } })))) :=
    keeps_outputs.after (keeps_exchBarrier.after (keeps_sampleFor.after ⟨rfl, rfl, rfl, rfl⟩))
  unfold afterCommit
  dsimp only
  generalize applyDrive _ = d' at hs ⊢
  refine keepsRows_isolateNamed.after (keepsRows_tearPending.after (Keeps.rows (keeps_takePace.after (keeps_trailSpace.after
    (keeps_raiseRing.after (Keeps.after ⟨rfl, rfl, rfl, rfl⟩ ?_))))))
  split
  · exact keeps_traceRun.after (Keeps.after ⟨rfl, rfl, rfl, rfl⟩ hs)
  · exact Keeps.after ⟨rfl, rfl, rfl, rfl⟩ hs

theorem keeps_nextCycle {n : Nat} {short : Bool} {d : Dev} (hr : ∀ r, (regionOf d r).rejoin = false) : Keeps d (nextCycle n short d) := by
  unfold nextCycle
  rw [rejoinAll_eq_self hr]
  split
  · exact keeps_stopHere
  · exact keeps_resume.after (keeps_setHold.after ⟨rfl, rfl, rfl, rfl⟩)

/-- Where no region rejoins, the barrier ends with the rows that its commit gives. -/
theorem bpAt_endCycle {env : PinEnv} {n p c b : Nat} {d : Dev} (hr : ∀ r, (regionOf d r).rejoin = false) :
    bpAt (endCycle env n d) p c b = bpAt (commitAll n (beforeCommit n d)) p c b := by
  obtain ⟨hv, hj⟩ := keepsRows_afterCommit (env := env) (n := n) (d := commitAll n (beforeCommit n d))
  have hr' (r : Nat) : (regionOf (afterCommit env n (commitAll n (beforeCommit n d))).2 r).rejoin = false := by
    refine Bool.eq_false_iff.mpr fun h => ?_
    have := hj r h
    rw [regionOf, regions_commitAll, keeps_beforeCommit.regions] at this
    exact Bool.false_ne_true ((hr r).symm.trans this)
  rw [endCycle_eq]
  exact bpAt_of_commitViews ((keeps_nextCycle hr').views.trans hv)

/-- With its clusters done, the markers in, nothing left to replay and no entry uncorrectable, the barrier ends the design cycle. -/
theorem barrier_eq_endCycle {env : PinEnv} {d : Dev} (ho : cycleOpen d = true) (hf : d.clk.frozen = false) (hd : allDone d = true)
    (hm : markersIn d = true) (hl : replayLeft (flushReplay (drainMesh d)) = false)
    (hb : badCommits (countCommitFixes (flushReplay (drainMesh d))) = []) :
    barrier env d = endCycle env (curCycle d) (countCommitFixes (flushReplay (drainMesh d))) := by
  unfold barrier
  rw [if_pos (by simp only [ho, hf, hd, hm]; rfl)]
  dsimp only
  rw [if_neg (by simp only [hl]; exact Bool.false_ne_true), hb]

/-- R45 at the barrier: every BP of an ACTIVE region commits its entries. -/
theorem bpAt_endCycle_commitsTo {env : PinEnv} {n p c b : Nat} {d : Dev} {B' : Bp} (hr : ∀ r, (regionOf d r).rejoin = false)
    (hp : p < 528) (ha : tileActive d p = true) (hc : c < 16) (hb : b < 64) (h : CommitsTo p c b B' d) :
    bpAt (endCycle env n d) p c b = B' := by
  have hk : Keeps d (beforeCommit n d) := keeps_beforeCommit
  rw [bpAt_endCycle hr]
  exact bpAt_commitAll hp (hk.tileActive.trans ha) hc hb (hk.keepsAt.commitsTo h)

/-- R45 at the barrier, at one state slot: it takes SRC where EN is 1, and its change bit says whether its value changed. -/
theorem slot_endCycle {env : PinEnv} {n : Nat} {p : Fin 528} {c : Fin 16} {b : Fin 64} {k : Nat} {d : Dev}
    (hr : ∀ r, (regionOf d r).rejoin = false) (hbad : badCommits d = []) (ha : tileActive d p = true) (hk : k < 256)
    (hn : ((storeOf (tileOf d p) kCOMMIT c).map (·.1)).Nodup) :
    ∃ en src fix, usedCommit d.image.l (commitEntry (tileOf d p) c b k) = some (en, src, fix) ∧
      (bpAt (endCycle env n d) p c b).sta.getLsbD k = slotValue (bpAt d p c b) k en src ∧
      ((bpAt (endCycle env n d) p c b).staChg.getLsbD k = true ↔
        (bpAt (endCycle env n d) p c b).sta.getLsbD k ≠ (bpAt d p c b).sta.getLsbD k) := by
  have hc : badCommit (tileOf d p) c d.image.l = none := badCommit_of_badCommits hbad p.isLt ha c.isLt
  obtain ⟨sta, fixes, hok⟩ := bpCommit_ok hc b (bpAt d p c b)
  obtain ⟨en, src, fix, hu, hv⟩ := bpCommit_getLsbD hc hn hk hok
  have hB : bpAt (endCycle env n d) p c b = committedBp d.image.l sta (bpAt d p c b) :=
    bpAt_endCycle_commitsTo hr p.isLt ha c.isLt b.isLt ⟨sta, fixes, hok, rfl⟩
  rw [hB]
  exact ⟨en, src, fix, hu, hv, changeBit_iff⟩

/-- Settles O5: no other step of the barrier reaches the rows of a BP between its evaluation and its commit or after it, and an entry that
is not stored is 0, which commits RES[0] where RES[0] is 1. -/
theorem commitSlot : Obligations.CommitSlot := by
  refine ⟨fun L B k j en src fix e sta fixes hk hu => ?_, fun _ _ _ _ => rfl, fun s env ho hf hd hm hr => ?_⟩
  · refine ⟨_, _, commitSta_singleton hu, ?_, fun hj => ?_⟩
    · rw [getLsbD_setBit hk, if_pos rfl]
    · rw [getLsbD_setBit hk, if_neg hj]
  · intro d hl hbad
    have hk : Keeps s.dev d := keeps_countCommitFixes.after (keeps_flushReplay.after keeps_drainMesh)
    have hr' (r : Nat) : (regionOf d r).rejoin = false := by
      rw [regionOf, hk.regions]
      exact hr r
    have hb : barrier env s.dev = endCycle env (curCycle s.dev) d := barrier_eq_endCycle ho hf hd hm hl hbad
    clear_value d
    refine Ends.of_lift (f := barrier env) rfl fun ev p c b k ha hk256 hn => ?_
    obtain ⟨en, src, fix, hu, hslot⟩ := slot_endCycle (env := env) (n := curCycle s.dev) (b := b) hr' hbad ha hk256 hn
    rw [← hb] at hslot
    rw [commitEntry, hk.image, Nat.mul_comm b.val 64] at hu
    exact ⟨en, src, fix, hu, hslot⟩

end Sys2Proof.Machine
end

section
/-! PROOFS. The check code of step words and commit-table entries (R52 to R54, O55): parity, low check bits and syndrome are linear in
the stored word, so a fetch sees the codes of the bits in error alone. -/

namespace Sys2Proof.Machine

/-! ## Parity -/

theorem xor_xor_xor_comm_nat {a b c d : Nat} : a ^^^ b ^^^ (c ^^^ d) = a ^^^ c ^^^ (b ^^^ d) := by
  rw [Nat.xor_assoc, ← Nat.xor_assoc b, Nat.xor_comm b c, Nat.xor_assoc c, ← Nat.xor_assoc]

theorem xor_self_cancel_right {a b : Nat} : a ^^^ b ^^^ b = a := by
  rw [Nat.xor_assoc, Nat.xor_self, Nat.xor_zero]

theorem eq_of_xor_eq_zero {a b : Nat} (h : a ^^^ b = 0) : a = b := by
  rw [← xor_self_cancel_right (a := a) (b := b), h, Nat.zero_xor]

theorem parity_xor {n a b : Nat} : parity n (a ^^^ b) = (parity n a ^^ parity n b) := by
  induction n with
  | zero => rfl
  | succ n ih =>
    simp only [parity, Nat.testBit_xor, ih, Bool.xor_assoc, Bool.xor_left_comm (b.testBit n)]

theorem parity_congr {n a b : Nat} (h : ∀ i < n, a.testBit i = b.testBit i) : parity n a = parity n b := by
  induction n with
  | zero => rfl
  | succ n ih => simp only [parity, h n (Nat.lt_succ_self n), ih fun i hi => h i (Nat.lt_succ_of_lt hi)]

theorem parity_mod {n m a : Nat} (h : n ≤ m) : parity n (a % 2 ^ m) = parity n a :=
  parity_congr fun i hi => by simp [Nat.testBit_mod_two_pow, Nat.lt_of_lt_of_le hi h]

/-- The parity of a word is that of its two parts. -/
theorem parity_add {n m a : Nat} : parity (n + m) a = (parity m (a >>> n) ^^ parity n a) := by
  induction m with
  | zero => exact (Bool.false_xor _).symm
  | succ m ih => rw [← Nat.add_assoc, parity, ih, parity, Nat.testBit_shiftRight, Bool.xor_assoc]

theorem parity_two_pow {n i : Nat} : parity n (2 ^ i) = decide (i < n) := by
  induction n with
  | zero => rfl
  | succ n ih =>
    rw [parity, ih, Nat.testBit_two_pow]
    by_cases h : i = n
    · simp [h]
    · simp [h, show i < n + 1 ↔ i < n by omega]

/-! ## Column codes (Table 3.2) -/

/-- The runs of consecutive codes, between which a power of two is left out. -/
theorem colCode_cases (i : Nat) : i = 0 ∧ colCode i = 3 ∨ (0 < i ∧ i ≤ 3) ∧ colCode i = i + 4 ∨
    (3 < i ∧ i ≤ 10) ∧ colCode i = i + 5 ∨ (10 < i ∧ i ≤ 25) ∧ colCode i = i + 6 ∨
    (25 < i ∧ i ≤ 56) ∧ colCode i = i + 7 ∨ 56 < i ∧ colCode i = i + 8 := by
  unfold colCode
  repeat' split
  all_goals omega

/-- A column code lies strictly between two powers of two, so that it is none. -/
theorem colCode_between {i : Nat} (h : i < 120) : ∃ m, 2 ^ m < colCode i ∧ colCode i < 2 ^ (m + 1) := by
  obtain hc | hc | hc | hc | hc | hc := colCode_cases i
  · exact ⟨1, by omega⟩
  · exact ⟨2, by omega⟩
  · exact ⟨3, by omega⟩
  · exact ⟨4, by omega⟩
  · exact ⟨5, by omega⟩
  · exact ⟨6, by omega⟩

theorem colCode_ne_two_pow {i j : Nat} (h : i < 120) : colCode i ≠ 2 ^ j := by
  obtain ⟨m, hl, hu⟩ := colCode_between h
  intro e
  rw [e] at hl hu
  have := (Nat.pow_lt_pow_iff_right Nat.one_lt_two).mp hl
  have := (Nat.pow_lt_pow_iff_right Nat.one_lt_two).mp hu
  omega

theorem colCode_lt_colCode {i j : Nat} (h : i < j) : colCode i < colCode j := by
  have := colCode_cases i
  have := colCode_cases j
  omega

theorem colCode_injective {i j : Nat} (h : colCode i = colCode j) : i = j := by
  obtain hlt | heq | hgt := Nat.lt_trichotomy i j
  · exact absurd h (Nat.ne_of_lt (colCode_lt_colCode hlt))
  · exact heq
  · exact absurd h (Nat.ne_of_gt (colCode_lt_colCode hgt))

theorem colCode_ne_zero {i : Nat} : colCode i ≠ 0 := by
  have := colCode_cases i
  omega

/-- The codes of `n` data bits fit a `k`-bit syndrome. -/
abbrev CodesFit (n k : Nat) : Prop := ∀ i < n, colCode i < 2 ^ k

theorem codesFit_step : CodesFit 80 7 := by
  intro i hi
  have := colCode_cases i
  omega

theorem codesFit_commit : CodesFit 24 5 := by
  intro i hi
  have := colCode_cases i
  omega

/-! ## The low check bits -/

theorem ite_xor {x y : Bool} {c : Nat} :
    (if (x ^^ y) = true then c else 0) = (if x = true then c else 0) ^^^ (if y = true then c else 0) := by
  cases x <;> cases y
  · exact (Nat.xor_self 0).symm
  · exact (Nat.zero_xor c).symm
  · exact (Nat.xor_zero c).symm
  · exact (Nat.xor_self c).symm

theorem chkLow_xor {n a b : Nat} : chkLow n (a ^^^ b) = chkLow n a ^^^ chkLow n b := by
  induction n with
  | zero => exact (Nat.xor_self 0).symm
  | succ n ih =>
    rw [chkLow, chkLow, chkLow, ih, Nat.testBit_xor, ite_xor, xor_xor_xor_comm_nat]

theorem chkLow_congr {n a b : Nat} (h : ∀ i < n, a.testBit i = b.testBit i) : chkLow n a = chkLow n b := by
  induction n with
  | zero => rfl
  | succ n ih => simp only [chkLow, h n (Nat.lt_succ_self n), ih fun i hi => h i (Nat.lt_succ_of_lt hi)]

theorem chkLow_mod {n a : Nat} : chkLow n (a % 2 ^ n) = chkLow n a :=
  chkLow_congr fun i hi => by simp [Nat.testBit_mod_two_pow, hi]

theorem chkLow_two_pow {n i : Nat} : chkLow n (2 ^ i) = if i < n then colCode i else 0 := by
  induction n with
  | zero => rfl
  | succ n ih =>
    rw [chkLow, ih, Nat.testBit_two_pow]
    by_cases h : i = n
    · simp [h]
    · simp [h, show i < n + 1 ↔ i < n by omega]

theorem chkLow_lt {n k p : Nat} (h : CodesFit n k) : chkLow n p < 2 ^ k := by
  induction n with
  | zero => exact Nat.two_pow_pos k
  | succ n ih =>
    refine Nat.xor_lt_two_pow ?_ (ih fun i hi => h i (Nat.lt_succ_of_lt hi))
    split
    · exact h n (Nat.lt_succ_self n)
    · exact Nat.two_pow_pos k

/-- The XOR of the column codes of the set bits, taken along the list of codes. -/
theorem foldl_codes_eq_chkLow {n p : Nat} :
    ((List.range n).map colCode).zipIdx.foldl (fun x (c, i) => if p.testBit i then x ^^^ c else x) 0 = chkLow n p := by
  induction n with
  | zero => rfl
  | succ n ih =>
    rw [List.range_succ, List.map_append, List.zipIdx_append, List.foldl_append, ih]
    simp only [List.map_cons, List.map_nil, List.zipIdx_singleton, List.length_map, List.length_range, Nat.zero_add,
      List.foldl_cons, List.foldl_nil, chkLow]
    split
    · exact Nat.xor_comm ..
    · exact (Nat.zero_xor _).symm

/-! ## The stored form -/

section
variable {n k p : Nat}

theorem chkBits_mod (h : CodesFit n k) : chkBits n k p % 2 ^ k = chkLow n p := by
  rw [chkBits, Nat.shiftLeft_eq, Nat.add_mul_mod_self_right, Nat.mod_eq_of_lt (chkLow_lt h)]

theorem chkBits_shiftRight (h : CodesFit n k) : chkBits n k p >>> k = b2n (parity n p ^^ parity k (chkLow n p)) := by
  rw [chkBits, Nat.shiftLeft_eq, Nat.shiftRight_eq_div_pow, Nat.add_mul_div_right _ _ (Nat.two_pow_pos k),
    Nat.div_eq_of_lt (chkLow_lt h), Nat.zero_add]

theorem testBit_zero_b2n {b : Bool} : (b2n b).testBit 0 = b := by cases b <;> rfl

theorem testBit_chkBits (h : CodesFit n k) : (chkBits n k p).testBit k = (parity n p ^^ parity k (chkLow n p)) := by
  rw [← Nat.add_zero k, ← Nat.testBit_shiftRight, Nat.add_zero, chkBits_shiftRight h, testBit_zero_b2n]

theorem chkBits_lt (h : CodesFit n k) : chkBits n k p < 2 ^ (k + 1) := by
  have hd : chkBits n k p / 2 ^ k ≤ 1 := by
    rw [← Nat.shiftRight_eq_div_pow, chkBits_shiftRight h]
    cases parity n p ^^ parity k (chkLow n p) <;> decide
  rw [Nat.pow_succ, Nat.mul_comm]
  exact (Nat.div_lt_iff_lt_mul (Nat.two_pow_pos k)).mp (by omega)

theorem secEncode_mod (hp : p < 2 ^ n) : secEncode n k p % 2 ^ n = p := by
  rw [secEncode, Nat.shiftLeft_eq, Nat.add_mul_mod_self_right, Nat.mod_eq_of_lt hp]

theorem secEncode_shiftRight (hp : p < 2 ^ n) : secEncode n k p >>> n = chkBits n k p := by
  rw [secEncode, Nat.shiftLeft_eq, Nat.shiftRight_eq_div_pow, Nat.add_mul_div_right _ _ (Nat.two_pow_pos n),
    Nat.div_eq_of_lt hp, Nat.zero_add]

theorem secEncode_lt (h : CodesFit n k) (hp : p < 2 ^ n) : secEncode n k p < 2 ^ (n + k + 1) := by
  have hd : secEncode n k p / 2 ^ n < 2 ^ (k + 1) := by
    rw [← Nat.shiftRight_eq_div_pow, secEncode_shiftRight hp]
    exact chkBits_lt h
  rw [Nat.add_assoc, Nat.pow_add, Nat.mul_comm]
  exact (Nat.div_lt_iff_lt_mul (Nat.two_pow_pos n)).mp hd

/-- The top check bit makes the parity of the stored form even. -/
theorem parity_secEncode (h : CodesFit n k) (hp : p < 2 ^ n) : parity (n + k + 1) (secEncode n k p) = false := by
  have hlow : parity k (chkBits n k p) = parity k (chkLow n p) := by
    rw [← chkBits_mod h, parity_mod (Nat.le_refl k)]
  have hdata : parity n (secEncode n k p) = parity n p := by
    rw [← parity_mod (Nat.le_refl n), secEncode_mod hp]
  rw [Nat.add_assoc, parity_add, hdata, secEncode_shiftRight hp, parity, hlow, testBit_chkBits h]
  cases parity n p <;> cases parity k (chkLow n p) <;> rfl

/-! ## The syndrome -/

/-- The syndrome of a stored word of `n` data bits: the recomputed low check bits XOR the stored ones. -/
def syndrome (n k w : Nat) : Nat := chkLow n (w % 2 ^ n) ^^^ (w >>> n % 2 ^ k)

theorem syndrome_xor {a b : Nat} : syndrome n k (a ^^^ b) = syndrome n k a ^^^ syndrome n k b := by
  rw [syndrome, syndrome, syndrome, Nat.xor_mod_two_pow, Nat.shiftRight_xor_distrib, Nat.xor_mod_two_pow, chkLow_xor, xor_xor_xor_comm_nat]

theorem syndrome_secEncode (h : CodesFit n k) (hp : p < 2 ^ n) : syndrome n k (secEncode n k p) = 0 := by
  rw [syndrome, secEncode_mod hp, secEncode_shiftRight hp, chkBits_mod h, Nat.xor_self]

/-- What an error in bit `i` of a stored word adds to its syndrome. -/
def errCode (n k i : Nat) : Nat := if i < n then colCode i else if i < n + k then 2 ^ (i - n) else 0

theorem syndrome_two_pow {i : Nat} : syndrome n k (2 ^ i) = errCode n k i := by
  rw [syndrome, chkLow_mod, chkLow_two_pow, errCode]
  split
  next hi =>
    have : 2 ^ i >>> n = 0 := by
      rw [Nat.shiftRight_eq_div_pow, Nat.div_eq_of_lt (Nat.pow_lt_pow_right Nat.one_lt_two hi)]
    rw [this, Nat.zero_mod, Nat.xor_zero]
  next hi =>
    have : 2 ^ i >>> n = 2 ^ (i - n) := by
      rw [Nat.shiftRight_eq_div_pow, Nat.pow_div (by omega) Nat.two_pos]
    rw [this, Nat.zero_xor]
    split
    · exact Nat.mod_eq_of_lt (Nat.pow_lt_pow_right Nat.one_lt_two (by omega))
    · exact Nat.mod_eq_zero_of_dvd (Nat.pow_dvd_pow 2 (by omega))

theorem two_pow_injective {i j : Nat} (h : 2 ^ i = 2 ^ j) : i = j :=
  Nat.pow_right_inj Nat.one_lt_two |>.mp h

theorem errCode_injOn {i j : Nat} (hn : n ≤ 120) (hi : i < n + k + 1) (hj : j < n + k + 1)
    (h : errCode n k i = errCode n k j) : i = j := by
  unfold errCode at h
  by_cases hin : i < n <;> by_cases hjn : j < n
  · rw [if_pos hin, if_pos hjn] at h
    exact colCode_injective h
  · rw [if_pos hin, if_neg hjn] at h
    split at h
    · exact absurd h (colCode_ne_two_pow (by omega))
    · exact absurd h colCode_ne_zero
  · rw [if_neg hin, if_pos hjn] at h
    split at h
    · exact absurd h.symm (colCode_ne_two_pow (by omega))
    · exact absurd h.symm colCode_ne_zero
  · rw [if_neg hin, if_neg hjn] at h
    by_cases hik : i < n + k <;> by_cases hjk : j < n + k
    · rw [if_pos hik, if_pos hjk] at h
      have := two_pow_injective h
      omega
    · rw [if_pos hik, if_neg hjk] at h
      exact absurd h (Nat.ne_of_gt (Nat.two_pow_pos _))
    · rw [if_neg hik, if_pos hjk] at h
      exact absurd h.symm (Nat.ne_of_gt (Nat.two_pow_pos _))
    · omega

/-! ## The check on fetch (Table 3.3) -/

variable {w : Nat}

theorem secFetch_of_even (h : parity (n + k + 1) w = false) (hs : syndrome n k w = 0) : secFetch n k w = .ok (w % 2 ^ n) := by
  unfold syndrome at hs
  simp only [secFetch, h, hs, Bool.false_eq_true, if_false, if_true]

theorem secFetch_bad_of_even (h : parity (n + k + 1) w = false) (hs : syndrome n k w ≠ 0) : secFetch n k w = .bad := by
  unfold syndrome at hs
  simp only [secFetch, h, hs, Bool.false_eq_true, if_false]

/-- The syndrome names no data bit: it is that of an error among the check bits. -/
abbrev AtCheckBit (k s : Nat) : Prop := s = 0 ∨ ∃ j < k, s = 2 ^ j

theorem atCheckBit_iff {s : Nat} : AtCheckBit k s ↔ s = 0 ∨ (List.range k).any (fun j => 2 ^ j = s) = true := by
  have h (j : Nat) : s = 2 ^ j ↔ 2 ^ j = s := eq_comm
  simp only [AtCheckBit, List.any_eq_true, List.mem_range, decide_eq_true_eq, h]

theorem secFetch_of_check_bit (h : parity (n + k + 1) w = true) (hs : AtCheckBit k (syndrome n k w)) :
    secFetch n k w = .fixed (w % 2 ^ n) := by
  rw [atCheckBit_iff, syndrome] at hs
  simp only [secFetch, h, if_true]
  rw [if_pos hs]

/-- With an odd parity and a syndrome of no check bit, the fetch looks the data bit up. -/
theorem secFetch_of_odd (h : parity (n + k + 1) w = true) (hs : ¬ AtCheckBit k (syndrome n k w)) :
    secFetch n k w = ((List.range n).find? fun i => colCode i = syndrome n k w).elim .bad fun i => .fixed (w % 2 ^ n ^^^ 2 ^ i) := by
  rw [atCheckBit_iff, syndrome] at hs
  simp only [secFetch, h, if_true]
  rw [if_neg hs]
  unfold syndrome
  cases (List.range n).find? fun i => colCode i = chkLow n (w % 2 ^ n) ^^^ (w >>> n % 2 ^ k) <;> rfl

theorem not_atCheckBit_colCode {i : Nat} (h : i < 120) : ¬ AtCheckBit k (colCode i) := by
  rintro (h0 | ⟨j, -, h2⟩)
  · exact colCode_ne_zero h0
  · exact colCode_ne_two_pow h h2

theorem secFetch_of_data_bit {i : Nat} (hn : n ≤ 120) (hi : i < n) (h : parity (n + k + 1) w = true)
    (hs : syndrome n k w = colCode i) : secFetch n k w = .fixed (w % 2 ^ n ^^^ 2 ^ i) := by
  have hf : (List.range n).find? (fun i => colCode i = syndrome n k w) = some i := by
    rw [List.find?_range_eq_some, hs]
    refine ⟨decide_eq_true rfl, List.mem_range.mpr hi, fun j hj => ?_⟩
    simpa using Nat.ne_of_lt (colCode_lt_colCode hj)
  rw [secFetch_of_odd h (hs ▸ not_atCheckBit_colCode (by omega)), hf, Option.elim_some]

theorem secFetch_bad_of_odd (h : parity (n + k + 1) w = true) (hs : ¬ AtCheckBit k (syndrome n k w))
    (hc : ∀ i < n, colCode i ≠ syndrome n k w) : secFetch n k w = .bad := by
  have hf : (List.range n).find? (fun i => colCode i = syndrome n k w) = none := by
    simpa using hc
  rw [secFetch_of_odd h hs, hf, Option.elim_none]

/-- A syndrome from the first unused column code on names no bit. -/
theorem secFetch_bad_of_le (h : parity (n + k + 1) w = true) (hc : colCode n ≤ syndrome n k w) (hk : 2 ^ k < 2 * syndrome n k w) :
    secFetch n k w = .bad := by
  refine secFetch_bad_of_odd h ?_ fun i hi => Nat.ne_of_lt (Nat.lt_of_lt_of_le (colCode_lt_colCode hi) hc)
  rintro (h0 | ⟨j, hj, h2⟩)
  · rw [h0] at hk
    exact absurd hk (Nat.not_lt_zero _)
  · have : 2 ^ (j + 1) ≤ 2 ^ k := Nat.pow_le_pow_right Nat.two_pos hj
    omega

/-- Table 3.3. -/
theorem secFetch_table (hn : n ≤ 120) :
    let p := w % 2 ^ n
    let S := w / 2 ^ n % 2 ^ k ^^^ chkLow n p
    let P := parity (n + k + 1) w
    (P = false → S = 0 → secFetch n k w = .ok p) ∧ (P = true → S = 0 → secFetch n k w = .fixed p) ∧
    (∀ j, j < k → P = true → S = 2 ^ j → secFetch n k w = .fixed p) ∧
    (∀ i, i < n → P = true → S = colCode i → secFetch n k w = .fixed (p ^^^ 2 ^ i)) ∧
    (P = true → colCode n ≤ S ∧ 2 ^ k < 2 * S → secFetch n k w = .bad) ∧ (P = false → S ≠ 0 → secFetch n k w = .bad) := by
  intro p S P
  have hS : S = syndrome n k w := by rw [syndrome, Nat.xor_comm, Nat.shiftRight_eq_div_pow]
  clear_value S
  subst hS
  exact ⟨secFetch_of_even, fun hP hs => secFetch_of_check_bit hP (.inl hs),
    fun j hj hP hs => secFetch_of_check_bit hP (.inr ⟨j, hj, hs⟩), fun i hi hP hs => secFetch_of_data_bit hn hi hP hs,
    fun hP hs => secFetch_bad_of_le hP hs.1 hs.2, secFetch_bad_of_even⟩

/-! ## Bits in error -/

theorem secFetch_secEncode (h : CodesFit n k) (hp : p < 2 ^ n) : secFetch n k (secEncode n k p) = .ok p := by
  rw [secFetch_of_even (parity_secEncode h hp) (syndrome_secEncode h hp), secEncode_mod hp]

/-- Any single bit in error is corrected. -/
theorem secFetch_secEncode_flip {i : Nat} (h : CodesFit n k) (hn : n ≤ 120) (hp : p < 2 ^ n) (hi : i < n + k + 1) :
    secFetch n k (secEncode n k p ^^^ 2 ^ i) = .fixed p := by
  have hP : parity (n + k + 1) (secEncode n k p ^^^ 2 ^ i) = true := by
    rw [parity_xor, parity_secEncode h hp, parity_two_pow, decide_eq_true hi]
    rfl
  have hS : syndrome n k (secEncode n k p ^^^ 2 ^ i) = errCode n k i := by
    rw [syndrome_xor, syndrome_secEncode h hp, syndrome_two_pow, Nat.zero_xor]
  have hD : (secEncode n k p ^^^ 2 ^ i) % 2 ^ n = p ^^^ 2 ^ i % 2 ^ n := by
    rw [Nat.xor_mod_two_pow, secEncode_mod hp]
  by_cases hin : i < n
  · rw [errCode, if_pos hin] at hS
    rw [secFetch_of_data_bit hn hin hP hS, hD, Nat.mod_eq_of_lt (Nat.pow_lt_pow_right Nat.one_lt_two hin), xor_self_cancel_right]
  · have hc : syndrome n k (secEncode n k p ^^^ 2 ^ i) = 0 ∨
        ∃ j < k, syndrome n k (secEncode n k p ^^^ 2 ^ i) = 2 ^ j := by
      rw [hS, errCode, if_neg hin]
      split
      · exact .inr ⟨i - n, by omega, rfl⟩
      · exact .inl rfl
    rw [secFetch_of_check_bit hP hc, hD, Nat.mod_eq_zero_of_dvd (Nat.pow_dvd_pow 2 (by omega)), Nat.xor_zero]

/-- Any two bits in error are uncorrectable. -/
theorem secFetch_secEncode_flip_flip {i j : Nat} (h : CodesFit n k) (hn : n ≤ 120) (hp : p < 2 ^ n) (hi : i < n + k + 1)
    (hj : j < n + k + 1) (hij : i ≠ j) : secFetch n k (secEncode n k p ^^^ 2 ^ i ^^^ 2 ^ j) = .bad := by
  refine secFetch_bad_of_even ?_ ?_
  · rw [parity_xor, parity_xor, parity_secEncode h hp, parity_two_pow, parity_two_pow, decide_eq_true hi, decide_eq_true hj]
    rfl
  · rw [syndrome_xor, syndrome_xor, syndrome_secEncode h hp, syndrome_two_pow, syndrome_two_pow, Nat.zero_xor]
    exact fun e => hij (errCode_injOn hn hi hj (eq_of_xor_eq_zero e))

end

/-! ## Step words and commit-table entries -/

theorem toNat_stepEncode {p : BitVec 80} : (stepEncode p).toNat = secEncode 80 7 p.toNat := by
  rw [stepEncode, BitVec.toNat_ofNat, Nat.mod_eq_of_lt (secEncode_lt codesFit_step p.isLt)]

theorem toNat_commitEncode {p : BitVec 24} : (commitEncode p).toNat = secEncode 24 5 p.toNat := by
  have := secEncode_lt codesFit_commit p.isLt
  rw [commitEncode, BitVec.toNat_ofNat, Nat.mod_eq_of_lt (by omega)]

theorem toNat_xor_twoPow {n i : Nat} {w : BitVec n} (hi : i < n) : (w ^^^ BitVec.twoPow n i).toNat = w.toNat ^^^ 2 ^ i := by
  rw [BitVec.toNat_xor, BitVec.toNat_twoPow, Nat.mod_eq_of_lt (Nat.pow_lt_pow_right Nat.one_lt_two hi)]

theorem getD_codes {n i : Nat} (h : i < n) : ((List.range n).map colCode).getD i 0 = colCode i := by
  simp [List.getD, h]

/-- Table 3.3 for a step word, with its syndrome and the list of the column codes. -/
theorem stepFetch_table {w : BitVec 88} {codes : List Nat} {S : Nat} (hc : codes = (List.range 80).map colCode)
    (hS : S = w.toNat / 2 ^ 80 % 2 ^ 7 ^^^ chkLow 80 (w.toNat % 2 ^ 80)) :
    let p := w.toNat % 2 ^ 80
    let P := parity 88 w.toNat
    (P = false → S = 0 → stepFetch w = .ok p) ∧ (P = true → S = 0 → stepFetch w = .fixed p) ∧
    (∀ j, j < 7 → P = true → S = 2 ^ j → stepFetch w = .fixed p) ∧
    (∀ i, i < 80 → P = true → S = codes.getD i 0 → stepFetch w = .fixed (p ^^^ 2 ^ i)) ∧
    (P = true → 88 ≤ S → stepFetch w = .bad) ∧ (P = false → S ≠ 0 → stepFetch w = .bad) := by
  obtain ⟨hok, hpar, hchk, hdata, hbad, heven⟩ := secFetch_table (n := 80) (k := 7) (w := w.toNat) (by decide)
  subst hc hS
  refine ⟨hok, hpar, hchk, fun i hi hP hs => hdata i hi hP ?_, fun hP hs => hbad hP ⟨hs, ?_⟩, heven⟩
  · rw [hs, getD_codes hi]
  · omega

/-- Table 3.3 for a commit-table entry, of which a fetch reads bits [29:0]. -/
theorem commitFetch_table {w : BitVec 32} {codes : List Nat} {S : Nat} (hc : codes = (List.range 80).map colCode)
    (hS : S = w.toNat / 2 ^ 24 % 2 ^ 5 ^^^ chkLow 24 (w.toNat % 2 ^ 24)) :
    let p := w.toNat % 2 ^ 24
    let P := parity 30 w.toNat
    (P = false → S = 0 → commitFetch w = .ok p) ∧ (P = true → S = 0 → commitFetch w = .fixed p) ∧
    (∀ j, j < 5 → P = true → S = 2 ^ j → commitFetch w = .fixed p) ∧
    (∀ i, i < 24 → P = true → S = codes.getD i 0 → commitFetch w = .fixed (p ^^^ 2 ^ i)) ∧
    (P = true → (S = 30 ∨ S = 31) → commitFetch w = .bad) ∧ (P = false → S ≠ 0 → commitFetch w = .bad) := by
  have hdat : w.toNat % 2 ^ 30 % 2 ^ 24 = w.toNat % 2 ^ 24 := Nat.mod_mod_of_dvd _ (by decide)
  have hlow : w.toNat % 2 ^ 30 / 2 ^ 24 % 2 ^ 5 = w.toNat / 2 ^ 24 % 2 ^ 5 := by omega
  have hpty : parity 30 (w.toNat % 2 ^ 30) = parity 30 w.toNat := parity_mod (Nat.le_refl 30)
  have h := secFetch_table (n := 24) (k := 5) (w := w.toNat % 2 ^ 30) (by decide)
  rw [hdat, hlow, hpty] at h
  obtain ⟨hok, hpar, hchk, hdata, hbad, heven⟩ := h
  rw [← hS] at hok hpar hchk hdata hbad heven
  subst hc
  refine ⟨hok, hpar, hchk, fun i hi hP hs => hdata i hi hP ?_, fun hP hs => hbad hP ?_, heven⟩
  · rw [hs, getD_codes (by omega)]
  · rcases hs with hs | hs <;> rw [hs] <;> decide

theorem stepFetch_stepEncode {p : BitVec 80} : stepFetch (stepEncode p) = .ok p.toNat ∧
    (∀ i, i < 88 → stepFetch (stepEncode p ^^^ BitVec.twoPow 88 i) = .fixed p.toNat) ∧
    (∀ i j, i < 88 → j < 88 → i ≠ j → stepFetch (stepEncode p ^^^ BitVec.twoPow 88 i ^^^ BitVec.twoPow 88 j) = .bad) := by
  have hn : 80 ≤ 120 := by decide
  refine ⟨?_, fun i hi => ?_, fun i j hi hj hij => ?_⟩
  · rw [stepFetch, toNat_stepEncode]
    exact secFetch_secEncode codesFit_step p.isLt
  · rw [stepFetch, toNat_xor_twoPow hi, toNat_stepEncode]
    exact secFetch_secEncode_flip codesFit_step hn p.isLt hi
  · rw [stepFetch, toNat_xor_twoPow hj, toNat_xor_twoPow hi, toNat_stepEncode]
    exact secFetch_secEncode_flip_flip codesFit_step hn p.isLt hi hj hij

theorem commitFetch_commitEncode {p : BitVec 24} : commitFetch (commitEncode p) = .ok p.toNat ∧
    (∀ i, i < 30 → commitFetch (commitEncode p ^^^ BitVec.twoPow 32 i) = .fixed p.toNat) ∧
    (∀ i j, i < 30 → j < 30 → i ≠ j →
      commitFetch (commitEncode p ^^^ BitVec.twoPow 32 i ^^^ BitVec.twoPow 32 j) = .bad) := by
  have hn : 24 ≤ 120 := by decide
  have hE : secEncode 24 5 p.toNat < 2 ^ 30 := secEncode_lt codesFit_commit p.isLt
  have hx {a i : Nat} (ha : a < 2 ^ 30) (hi : i < 30) : a ^^^ 2 ^ i < 2 ^ 30 :=
    Nat.xor_lt_two_pow ha (Nat.pow_lt_pow_right Nat.one_lt_two hi)
  refine ⟨?_, fun i hi => ?_, fun i j hi hj hij => ?_⟩
  · rw [commitFetch, toNat_commitEncode, Nat.mod_eq_of_lt hE]
    exact secFetch_secEncode codesFit_commit p.isLt
  · rw [commitFetch, toNat_xor_twoPow (by omega), toNat_commitEncode, Nat.mod_eq_of_lt (hx hE hi)]
    exact secFetch_secEncode_flip codesFit_commit hn p.isLt hi
  · rw [commitFetch, toNat_xor_twoPow (by omega), toNat_xor_twoPow (by omega), toNat_commitEncode,
      Nat.mod_eq_of_lt (hx (hx hE hi) hj)]
    exact secFetch_secEncode_flip_flip codesFit_commit hn p.isLt hi hj hij

/-- Settles O55: the check field of the model's construction, at the widths of step words and commit-table entries. -/
theorem checkFields : Obligations.CheckFields := by
  unfold Obligations.CheckFields
  intro codes
  have hcodes : codes = (List.range 80).map colCode := rfl
  have htake : codes.take 24 = (List.range 24).map colCode := rfl
  refine ⟨fun p => ?_, fun p => ?_, rfl, rfl, by decide, by decide⟩
  · have hlow : codes.zipIdx.foldl (fun x (c, i) => if p.getLsbD i then x ^^^ c else x) 0 = chkLow 80 p.toNat := by
      rw [hcodes]
      exact foldl_codes_eq_chkLow
    simp only [hlow, toNat_stepEncode]
    refine ⟨secEncode_mod p.isLt, ?_, ?_, parity_secEncode codesFit_step p.isLt⟩
    · rw [← Nat.shiftRight_eq_div_pow, secEncode_shiftRight p.isLt, chkBits_mod codesFit_step]
    · rw [← BitVec.testBit_toNat, toNat_stepEncode, show 87 = 80 + 7 from rfl, ← Nat.testBit_shiftRight,
        secEncode_shiftRight p.isLt, testBit_chkBits codesFit_step]
  · have hlow : (codes.take 24).zipIdx.foldl (fun x (c, i) => if p.getLsbD i then x ^^^ c else x) 0 = chkLow 24 p.toNat := by
      rw [htake]
      exact foldl_codes_eq_chkLow
    simp only [hlow, toNat_commitEncode]
    refine ⟨secEncode_mod p.isLt, ?_, parity_secEncode codesFit_commit p.isLt⟩
    rw [← Nat.shiftRight_eq_div_pow, secEncode_shiftRight p.isLt, chkBits_mod codesFit_commit]

end Sys2Proof.Machine
end

section
/-! PROOFS. What leaves the count of corrected words and the committed cycle as they were (R54, O56): a frame lemma for every operation of a
cluster step and of the barrier. -/

namespace Sys2Proof.Machine

/-! ## What is counted -/

/-- The counts of corrected words (TILE_ECC_CORRECTED), by tile. -/
def eccs (ts : Tbl Tile) (p : Nat) : W64 := (tget Tile.reset ts p).eccCorrected

/-- A change of the module that leaves every count of corrected words and the committed cycle. Each shared operation has a lemma
`counts_…`; `simp` takes each of its two parts. -/
abbrev SameCounts (d d' : Dev) : Prop := eccs d'.tiles = eccs d.tiles ∧ d'.run.committed = d.run.committed

theorem SameCounts.refl (d : Dev) : SameCounts d d := ⟨rfl, rfl⟩

theorem SameCounts.after {d d' d'' : Dev} (h' : SameCounts d' d'') (h : SameCounts d d') : SameCounts d d'' :=
  ⟨h'.1.trans h.1, h'.2.trans h.2⟩

theorem SameCounts.foldl {κ : Type} {f : Dev → κ → Dev} (h : ∀ d x, SameCounts d (f d x)) {l : List κ} {d : Dev} :
    SameCounts d (l.foldl f d) := by
  induction l generalizing d with
  | nil => exact .refl d
  | cons x r ih => exact ih.after (h d x)

@[simp] theorem eccs_tupd {ts : Tbl Tile} {p : Nat} {f : Tile → Tile} (h : ∀ T, (f T).eccCorrected = T.eccCorrected) :
    eccs (tupd Tile.reset ts p f) = eccs ts :=
  funext fun _ => tget_tupd_view h

theorem counts_updTile {d : Dev} {p : Nat} {f : Tile → Tile}
    (h : ∀ T, (f T).eccCorrected = T.eccCorrected := by exact fun _ => rfl) : SameCounts d (updTile d p f) := ⟨eccs_tupd h, rfl⟩

@[simp] theorem counts_updCluster {d : Dev} {p c : Nat} {f : Cluster → Cluster} : SameCounts d (updCluster d p c f) := counts_updTile
@[simp] theorem counts_updCtx {d : Dev} {p q : Nat} {f : Ctx → Ctx} : SameCounts d (updCtx d p q f) := counts_updTile

@[simp] theorem counts_updPort {d : Dev} {p c i : Nat} {f : InPort → InPort} : SameCounts d (updPort d p c i f) :=
  counts_updTile

/-! ## Records, packets, states and stops -/

@[simp] theorem tiles_run_overflowSync {core : Nat} {d : Dev} :
    (overflowSync core d).tiles = d.tiles ∧ (overflowSync core d).run = d.run := by
  unfold overflowSync
  split <;> exact ⟨rfl, rfl⟩

@[simp] theorem tiles_run_dropPacket {src : Nat} {d : Dev} :
    (dropPacket src d).tiles = d.tiles ∧ (dropPacket src d).run = d.run := by
  unfold dropPacket
  repeat' split
  all_goals exact ⟨rfl, rfl⟩

@[simp] theorem tiles_run_trace {src kind : Nat} {ws : List W64} {d : Dev} :
    (trace src kind ws d).tiles = d.tiles ∧ (trace src kind ws d).run = d.run := by
  unfold trace
  dsimp only
  repeat' split
  all_goals simp [putPacket]

@[simp] theorem tiles_run_traceRun {ev v : Nat} {d : Dev} : (traceRun ev v d).tiles = d.tiles ∧ (traceRun ev v d).run = d.run :=
  tiles_run_trace

@[simp] theorem tiles_run_enterState {st : ModState} {d : Dev} :
    (enterState st d).tiles = d.tiles ∧ (enterState st d).run = { d.run with st := st } := by
  unfold enterState
  dsimp only
  split
  next h => exact ⟨rfl, by rw [← h]⟩
  repeat' split
  all_goals simp

@[simp] theorem tiles_run_setHold {a b : Bool} {d : Dev} :
    (setHold a b d).tiles = d.tiles ∧ (setHold a b d).run = { d.run with holdTrail := a, holdCap := b } := by
  unfold setHold
  dsimp only
  split <;> simp

@[simp] theorem counts_setCauses {set : BitVec 16} {d : Dev} : SameCounts d (setCauses set d) := ⟨rfl, rfl⟩
@[simp] theorem counts_logEntry {code : Nat} {w : Option (W64 × W64)} {d : Dev} : SameCounts d (logEntry code w d) := ⟨rfl, rfl⟩
@[simp] theorem counts_pulse {src : Nat} {d : Dev} : SameCounts d (pulse src d) := ⟨rfl, rfl⟩

@[simp] theorem counts_registerStop {cause : Nat} {d : Dev} : SameCounts d (registerStop cause d) := by
  unfold registerStop
  dsimp only
  split
  · split <;> simp [SameCounts]
  · split <;> exact ⟨rfl, rfl⟩
  all_goals exact ⟨rfl, rfl⟩

@[simp] theorem counts_recordHalts {d : Dev} : SameCounts d (recordHalts d) := by
  unfold recordHalts
  split <;> exact ⟨rfl, rfl⟩

/-! ## Packets on the service network -/

@[simp] theorem counts_passPath {p : Packet} {path : List (Nat × Nat × Nat)} {d : Dev} : SameCounts d (passPath p path d) := by
  refine SameCounts.foldl (fun d i => ?_)
  dsimp only
  repeat' split
  all_goals simp [SameCounts]

@[simp] theorem counts_passResponse {p : Packet} {router status : Nat} {data : List W64} {d : Dev} :
    SameCounts d (passResponse p router status data d) := counts_passPath

@[simp] theorem counts_travel {p : Packet} {decoded : Bool} {dom : Nat} {d : Dev} : SameCounts d (travel p decoded dom d).2 := by
  unfold travel
  dsimp only
  repeat' split
  all_goals simp [SameCounts]

@[simp] theorem counts_engineCall {p : Packet} {data : List W64} {d : Dev} : SameCounts d (engineCall p data d).2 := by
  unfold engineCall
  dsimp only
  split <;> simp [SameCounts]

/-! ## Capture -/

@[simp] theorem counts_capPost {a : Nat} {w : BitVec 32} {d : Dev} : SameCounts d (capPost a w d) := by
  unfold capPost post countDrop
  dsimp only
  split
  · simp [SameCounts, putHbm]
  · split <;> simp [SameCounts]

@[simp] theorem counts_capPut {die h x : Nat} {w : BitVec 32} {d : Dev} : SameCounts d (capPut die h x w d) := by
  unfold capPut
  dsimp only
  repeat' split
  all_goals simp [SameCounts]

@[simp] theorem counts_releaseWords {l : List (Nat × BitVec 32)} {d : Dev} : SameCounts d (releaseWords l d) := by
  induction l generalizing d with
  | nil => exact ⟨rfl, rfl⟩
  | cons x r ih =>
    unfold releaseWords
    split
    · exact ⟨rfl, rfl⟩
    · exact ih.after counts_capPost

@[simp] theorem counts_flushHeld {d : Dev} : SameCounts d (flushHeld d) := counts_releaseWords.after ⟨rfl, rfl⟩

@[simp] theorem counts_putRing {die h size pos : Nat} {l : List (BitVec 32)} {d : Dev} : SameCounts d (putRing die h size pos l d) := by
  induction l generalizing pos d with
  | nil => exact .refl d
  | cons w r ih => exact ih.after counts_capPut

@[simp] theorem counts_putWords {die h x : Nat} {l : List (BitVec 32)} {d : Dev} : SameCounts d (putWords die h x l d) := by
  induction l generalizing x d with
  | nil => exact .refl d
  | cons w r ih => exact ih.after counts_capPut

@[simp] theorem counts_endWindow {die : Nat} {d : Dev} : SameCounts d (endWindow die d) := by
  unfold endWindow updDie
  dsimp only
  repeat' split
  all_goals simp [SameCounts]

@[simp] theorem counts_endWindows {next : Nat} {d : Dev} : SameCounts d (endWindows next d) := by
  simp [SameCounts, endWindows]

@[simp] theorem counts_headerDie {T st entry die : Nat} {d : Dev} : SameCounts d (headerDie T st entry die d) := by
  unfold headerDie updDie
  simp [SameCounts]

@[simp] theorem counts_trailerDie {cut : Bool} {die : Nat} {d : Dev} : SameCounts d (trailerDie cut die d) := by
  unfold trailerDie
  dsimp only
  split <;> simp [SameCounts, takeFreeWord]

@[simp] theorem counts_closeHamper {cut : Bool} {d : Dev} : SameCounts d (closeHamper cut d) := by
  unfold closeHamper
  dsimp only
  split <;> simp [SameCounts, endSession]

@[simp] theorem counts_seqEval {d : Dev} : SameCounts d (seqEval d).1 := by
  unfold seqEval
  dsimp only
  split
  · exact ⟨rfl, rfl⟩
  · dsimp only
    split <;> exact ⟨rfl, rfl⟩

@[simp] theorem counts_startSession {a : Nat} {d : Dev} : SameCounts d (startSession a d) := by
  unfold startSession updDie
  dsimp only
  split <;> simp [SameCounts]

@[simp] theorem counts_takeRecords {full : Bool} {n : Nat} {d : Dev} : SameCounts d (takeRecords full n d) := by
  refine (SameCounts.foldl (fun d die => ?_)).after ?_
  · dsimp only
    repeat' split
    all_goals exact ⟨rfl, rfl⟩
  · split
    · exact counts_endWindows
    · exact .refl d

@[simp] theorem counts_takeTrigger {n : Nat} {tr : Option (Nat × Nat)} {d : Dev} : SameCounts d (takeTrigger n tr d) := by
  unfold takeTrigger
  dsimp only
  repeat' split
  all_goals simp [SameCounts]

@[simp] theorem counts_advanceHamper {n : Nat} {d : Dev} : SameCounts d (advanceHamper n d) := by
  unfold advanceHamper updDie
  dsimp only
  repeat' split
  all_goals simp [SameCounts]

@[simp] theorem counts_holdTaps {d : Dev} : SameCounts d (holdTaps d) := by
  unfold holdTaps
  refine SameCounts.foldl (fun d x => ?_)
  exact counts_updTile

@[simp] theorem counts_keepShown {n : Nat} {d : Dev} : SameCounts d (keepShown n d) := by
  unfold keepShown
  split <;> exact ⟨rfl, rfl⟩

theorem counts_captureBarrier {full : Bool} {n : Nat} {d : Dev} : SameCounts d (captureBarrier full n d) := by
  unfold captureBarrier
  dsimp only
  repeat' split
  all_goals simp [SameCounts]

/-! ## The trail -/

@[simp] theorem counts_trailPut {die cycle : Nat} {ws : List W64} {d : Dev} : SameCounts d (trailPut die cycle ws d) := by
  unfold trailPut
  split <;> exact ⟨rfl, rfl⟩

@[simp] theorem counts_openCycle {n : Nat} {d : Dev} : SameCounts d (openCycle n d) := by
  refine SameCounts.foldl (fun d die => ?_)
  split <;> simp [SameCounts]

theorem counts_asmRecords {n : Nat} {d : Dev} : SameCounts d (asmRecords n d) := by
  unfold asmRecords
  refine SameCounts.foldl (fun d x => ?_)
  dsimp only
  refine SameCounts.foldl (fun d c => ?_)
  split <;> simp [SameCounts]

theorem counts_countRecords {n : Nat} {d : Dev} : SameCounts d (countRecords n d) := by
  refine SameCounts.foldl fun d x => SameCounts.foldl fun d y => ?_
  dsimp only
  split <;> simp [SameCounts]

@[simp] theorem counts_advanceHead {k : Nat} {d : Dev} : SameCounts d (advanceHead k d) := by
  induction k generalizing d with
  | zero => exact .refl d
  | succ k ih =>
    rw [advanceHead_succ]
    dsimp only
    split
    · exact ⟨rfl, rfl⟩
    · split
      · exact ih.after ⟨rfl, rfl⟩
      · exact ⟨rfl, rfl⟩

@[simp] theorem counts_composeDue {n : Nat} {d : Dev} : SameCounts d (composeDue n d) := by
  unfold composeDue
  split <;> exact ⟨rfl, rfl⟩

@[simp] theorem counts_composeForced {n : Nat} {d : Dev} : SameCounts d (composeForced n d) := by
  unfold composeForced
  dsimp only
  split <;> exact ⟨rfl, rfl⟩

theorem counts_trailSpace {n : Nat} {d : Dev} : SameCounts d (trailSpace n d).2 := by
  unfold trailSpace advance
  dsimp only
  repeat' split
  all_goals simp [SameCounts]

/-! ## The exchange -/

@[simp] theorem counts_raiseExch {cont : Bool} {p c i sc step : Nat} {d : Dev} : SameCounts d (raiseExch cont p c i sc step d) := by
  unfold raiseExch
  dsimp only
  repeat' split
  all_goals simp [SameCounts]

@[simp] theorem counts_takeToken {p c i : Nat} {w : W64} {d : Dev} : SameCounts d (takeToken p c i w d) := by
  unfold takeToken
  dsimp only
  repeat' split
  all_goals simp [SameCounts]

theorem counts_takeBankMark {b key h : Nat} {d : Dev} : SameCounts d (takeBankMark b key h d) := by
  unfold takeBankMark
  split
  · exact .refl d
  · refine SameCounts.foldl (fun d x => ?_)
    dsimp only
    split <;> exact ⟨rfl, rfl⟩

theorem counts_dropAtBorder {f : Flit} {d : Dev} : SameCounts d (dropAtBorder f d) := by
  unfold dropAtBorder
  split <;> simp [SameCounts]

theorem counts_deliver {f : Flit} {d : Dev} : SameCounts d (deliver f d) := by
  unfold deliver takePin takeMark
  split
  · split
    · exact counts_takeToken
    · exact counts_dropAtBorder
  · exact ⟨rfl, rfl⟩
  · exact ⟨rfl, rfl⟩
  · split
    · simp [SameCounts]
    · exact counts_dropAtBorder
  · exact counts_takeBankMark

theorem counts_drainMesh {d : Dev} : SameCounts d (drainMesh d) := by
  unfold drainMesh
  generalize d.exch.mesh.length = n
  induction n generalizing d with
  | zero => exact .refl d
  | succ n ih =>
    unfold deliverFirst
    split
    · exact .refl d
    · exact ih.after (counts_deliver.after ⟨rfl, rfl⟩)

@[simp] theorem counts_meshPut {f : Flit} {d : Dev} : SameCounts d (meshPut f d) := ⟨rfl, rfl⟩
@[simp] theorem counts_meshMark {dest : MarkDest} {key : Nat} {w : W64} {d : Dev} : SameCounts d (meshMark dest key w d) := ⟨rfl, rfl⟩
@[simp] theorem counts_updLink {d : Dev} {l : Nat} {f : Link → Link} : SameCounts d (updLink d l f) := ⟨rfl, rfl⟩
@[simp] theorem counts_linkToken {lane lch : Nat} {w : W64} {d : Dev} : SameCounts d (linkToken lane lch w d) := ⟨rfl, rfl⟩

theorem counts_sendOwed {d : Dev} : SameCounts d (sendOwed d) := by
  unfold sendOwed
  dsimp only
  refine SameCounts.after (.foldl (fun d x => counts_linkToken)) (SameCounts.after (.foldl (fun d x => ?_)) ⟨rfl, rfl⟩)
  split <;> simp [SameCounts]

@[simp] theorem counts_raiseLink {lane : Nat} {d : Dev} : SameCounts d (raiseLink lane d) := by
  unfold raiseLink
  dsimp only
  split <;> exact ⟨rfl, rfl⟩

theorem counts_beginCycle {d : Dev} : SameCounts d (beginCycle d) :=
  (SameCounts.foldl (fun _ _ => counts_raiseLink)).after counts_sendOwed

/-! ## Queue controllers -/

@[simp] theorem counts_raiseBounds {p c cause n : Nat} {r : Req} {d : Dev} : SameCounts d (raiseBounds p c cause n r d) := by
  unfold raiseBounds
  dsimp only
  split <;> simp [SameCounts]

@[simp] theorem counts_performWrite {p q : Nat} {g : CtxCfg} {e : QEnt} {d : Dev} : SameCounts d (performWrite p q g e d) := by
  unfold performWrite putHbmBe
  dsimp only
  split <;> simp [SameCounts]

@[simp] theorem counts_serveOne {drain : Bool} {p q : Nat} {d : Dev} : SameCounts d (serveOne drain p q d) := by
  unfold serveOne stage
  dsimp only
  repeat' split
  all_goals simp [SameCounts]

theorem counts_drainCtx {p q k : Nat} {d : Dev} : SameCounts d (drainCtx p q k d) := by
  induction k generalizing d with
  | zero => exact .refl d
  | succ k ih => exact ih.after counts_serveOne

theorem counts_drainTile {p : Nat} {d : Dev} : SameCounts d (drainTile p d) := SameCounts.foldl (fun _ _ => counts_drainCtx)

@[simp] theorem counts_enqueue {p c : Nat} {d : Dev} : SameCounts d (enqueue p c d) := by
  unfold enqueue
  dsimp only
  repeat' split
  all_goals simp [SameCounts]

@[simp] theorem counts_consume {p c : Nat} {d : Dev} : SameCounts d (consume p c d) := by
  unfold consume
  dsimp only
  split <;> simp [SameCounts]

/-! ## Pins -/

theorem counts_landLevel {env : PinEnv} {mine : BitVec 256} {pin : Nat} {d : Dev} : SameCounts d (landLevel env mine pin d).2 := by
  unfold landLevel
  dsimp only
  repeat' split
  all_goals exact ⟨rfl, rfl⟩

theorem counts_samplePins {env : PinEnv} {d : Dev} : SameCounts d (samplePins env d).2 := by
  unfold samplePins
  dsimp only
  generalize (0 : BitVec 256) = acc, driving d = mine
  induction bitsOf 256 (boundIn d).toNat generalizing acc d with
  | nil => exact .refl d
  | cons pin r ih => exact (ih _).after counts_landLevel

theorem counts_deliverSample {v : BitVec 256} {d : Dev} : SameCounts d (deliverSample v d) := by
  unfold deliverSample
  dsimp only
  refine SameCounts.after (d' := { d with tio := { d.tio with sample := v } }) ?_ ⟨rfl, rfl⟩
  generalize { d with tio := { d.tio with sample := v } } = d'
  exact SameCounts.foldl fun _ _ => SameCounts.foldl fun _ _ => counts_updCluster

theorem counts_sampleFor {env : PinEnv} {n : Nat} {d : Dev} : SameCounts d (sampleFor env n d) := by
  unfold sampleFor
  dsimp only
  split
  · refine counts_deliverSample.after (SameCounts.after (.foldl (fun d die => ?_)) counts_openCycle)
    split
    · exact counts_trailPut
    · exact .refl d
  · refine counts_deliverSample.after (SameCounts.after ⟨rfl, rfl⟩ (SameCounts.after (.foldl (fun d die => ?_))
      (counts_samplePins.after counts_openCycle)))
    split
    · exact counts_trailPut
    · exact .refl d

/-! ## Basket -/

@[simp] theorem counts_readSlot {slot : Nat} {d : Dev} : SameCounts d (readSlot slot d).2 := by
  unfold readSlot
  repeat' split
  all_goals simp [SameCounts]

@[simp] theorem counts_putSlot {slot w be : Nat} {v : W64} {d : Dev} : SameCounts d (putSlot slot w v be d) := by
  unfold putSlot putHbmBe
  dsimp only
  repeat' split
  all_goals simp [SameCounts]

@[simp] theorem counts_putW5 {x : Desc} {d : Dev} : SameCounts d (putW5 x d) := counts_putSlot
@[simp] theorem counts_putLink {slot link : Nat} {d : Dev} : SameCounts d (putLink slot link d) := counts_putSlot
@[simp] theorem counts_bktTrace {kind prio port flow slot : Nat} {d : Dev} : SameCounts d (bktTrace kind prio port flow slot d) := by
  simp [SameCounts, bktTrace]

@[simp] theorem counts_descTrace {kind : Nat} {x : Desc} {d : Dev} : SameCounts d (descTrace kind x d) := counts_bktTrace

@[simp] theorem counts_bktWaits {d : Dev} : SameCounts d (bktWaits d) := by
  unfold bktWaits
  split <;> exact ⟨rfl, rfl⟩

@[simp] theorem counts_settleFlow {flow : Nat} {d : Dev} : SameCounts d (settleFlow flow d) := by
  unfold settleFlow
  repeat' split
  all_goals simp [SameCounts]

@[simp] theorem counts_updDesc {slot : Nat} {f : Desc → Desc} {d : Dev} : SameCounts d (updDesc slot f d) := by
  unfold updDesc
  split
  · exact .refl d
  · exact counts_putW5.after ⟨rfl, rfl⟩

@[simp] theorem counts_submitSlot {slot : Nat} {d : Dev} : SameCounts d (submitSlot slot d).2 := by
  unfold submitSlot refuseSlot acceptSlot
  dsimp only
  repeat' split
  all_goals simp [SameCounts]

@[simp] theorem counts_putResponse {c : Cmd} {reason : Nat} {data : List W64} {d : Dev} : SameCounts d (putResponse c reason data d) := by
  unfold putResponse sendTwin
  dsimp only
  repeat' split
  all_goals exact ⟨rfl, rfl⟩

@[simp] theorem counts_endSubmit {accepted code : Nat} {d : Dev} : SameCounts d (endSubmit accepted code d) := by
  unfold endSubmit
  repeat' split
  all_goals simp [SameCounts]

@[simp] theorem counts_giveBack {slot : Nat} {d : Dev} : SameCounts d (giveBack slot d) := by
  unfold giveBack undoDelivery
  dsimp only
  repeat' split
  all_goals simp [SameCounts]

theorem counts_nextDecision {j : BktJob} {rest : List BktJob} {d : Dev} : SameCounts d (nextDecision j rest d) := by
  unfold nextDecision setJobs
  dsimp only
  repeat' split
  all_goals simp [SameCounts]

theorem counts_runJobs {k : Nat} {d : Dev} : SameCounts d (runJobs k d) := by
  induction k generalizing d with
  | zero => exact .refl d
  | succ k ih =>
    unfold runJobs
    split
    · exact .refl d
    split
    · exact .refl d
    · refine ih.after ?_
      split
      · exact counts_nextDecision
      · exact counts_bktWaits.after counts_nextDecision

@[simp] theorem counts_putItem {p q flow : Nat} {v : W64} {d : Dev} : SameCounts d (putItem p q flow v d) := by
  unfold putItem
  simp [SameCounts]

theorem counts_replayItem {p q port flow : Nat} {item : W64} {d : Dev} : SameCounts d (replayItem p q port flow item d) := by
  unfold replayItem markDelivered aloneTrace takeFreeWord
  dsimp only
  repeat' split
  all_goals simp [SameCounts]

@[simp] theorem counts_releaseAll {l : List Nat} {d : Dev} : SameCounts d (releaseAll l d).2 := by
  induction l generalizing d with
  | nil => exact .refl d
  | cons s r ih =>
    have hr : SameCounts d (release s d).2 := by
      unfold release
      repeat' split
      all_goals simp [SameCounts]
    exact ih.after hr

theorem counts_complete {port cycle : Nat} {v : W64} {d : Dev} : SameCounts d (complete port cycle v d) := by
  unfold complete
  dsimp only
  repeat' split
  all_goals simp [SameCounts]

theorem counts_completeAll {l : List (Nat × Nat × W64)} {d : Dev} : SameCounts d (completeAll l d) := by
  induction l generalizing d with
  | nil => exact .refl d
  | cons x r ih =>
    unfold completeAll
    split
    · exact counts_bktWaits.after ⟨rfl, rfl⟩
    · exact ih.after counts_complete

theorem counts_applyStaged {n : Nat} {d : Dev} : SameCounts d (applyStaged n d) := counts_completeAll.after ⟨rfl, rfl⟩

theorem counts_stageAllHeld {d : Dev} : SameCounts d (stageAllHeld d) := by
  have hs (p q : Nat) (d : Dev) : SameCounts d (stageHeld p q d) := by
    unfold stageHeld stage
    dsimp only
    repeat' split
    all_goals simp [SameCounts]
  refine SameCounts.foldl fun d x => SameCounts.foldl fun d y => ?_
  dsimp only
  split
  · exact SameCounts.foldl (fun d _ => hs _ _ d)
  · exact .refl d

theorem counts_flushLogged {p q port k : Nat} {d : Dev} : SameCounts d (flushLogged p q port k d) := by
  induction k generalizing d with
  | zero => exact .refl d
  | succ k ih =>
    unfold flushLogged
    split
    · split
      · exact counts_bktWaits
      · exact ih.after counts_replayItem
    · exact .refl d

theorem counts_flushReplay {d : Dev} : SameCounts d (flushReplay d) := by
  have h (m n : Nat) : SameCounts d (applyStaged n (stageAllHeld (applyStaged m (bktGoOn d)))) :=
    counts_applyStaged.after (counts_stageAllHeld.after (counts_applyStaged.after counts_runJobs))
  unfold flushReplay
  dsimp only
  split
  · exact .refl d
  · split
    · exact h _ _
    · exact SameCounts.after (.foldl (fun _ _ => counts_flushLogged)) (h _ _)

theorem counts_raiseRing {d : Dev} : SameCounts d (raiseRing d) := by
  unfold raiseRing
  split <;> exact ⟨rfl, rfl⟩

/-! ## Regions -/

@[simp] theorem counts_updRegion {d : Dev} {r : Nat} {f : Region → Region} : SameCounts d (updRegion d r f) := ⟨rfl, rfl⟩
@[simp] theorem counts_oweRefresh {r : Nat} {d : Dev} : SameCounts d (oweRefresh r d) := ⟨rfl, rfl⟩
@[simp] theorem counts_leaveActive {st : RegionSt} {r : Nat} {d : Dev} : SameCounts d (leaveActive st r d) := ⟨rfl, rfl⟩

@[simp] theorem counts_tearRegion {reason r : Nat} {w : Option (W64 × W64)} {d : Dev} : SameCounts d (tearRegion reason r w d) := by
  unfold tearRegion
  dsimp only
  split <;> simp [SameCounts]

theorem counts_tearPending {d : Dev} : SameCounts d (tearPending d) := by
  unfold tearPending
  refine SameCounts.foldl (fun d r => ?_)
  dsimp only
  split <;> simp [SameCounts]

theorem counts_isolateRegion {r : Nat} {d : Dev} : SameCounts d (isolateRegion r d) := by
  unfold isolateRegion
  dsimp only
  refine SameCounts.after (.foldl (fun _ _ => counts_updTile)) (counts_updRegion.after (counts_leaveActive.after ?_))
  have hd : SameCounts d ((regionTiles d.fuse r).foldl (fun d p => drainTile p d) d) := .foldl (fun _ _ => counts_drainTile)
  split
  · exact counts_oweRefresh.after hd
  · exact hd

theorem counts_isolateNamed {d : Dev} : SameCounts d (isolateNamed d) := by
  unfold isolateNamed
  dsimp only
  generalize (List.range 32).filter _ = named
  have hd : SameCounts d (named.foldl (fun d r => isolateRegion r d) d) := .foldl (fun _ _ => counts_isolateRegion)
  split <;> exact hd

/-! ## Rejoins -/

theorem counts_leaveRegion {r : Nat} {d : Dev} : SameCounts d (leaveRegion r d) := by
  unfold leaveRegion
  dsimp only
  exact SameCounts.after (.foldl fun _ _ => counts_updTile) (counts_updRegion.after counts_leaveActive)

theorem counts_writeRoutes {d : Dev} : SameCounts d (writeRoutes d) := by
  unfold writeRoutes
  dsimp only
  exact SameCounts.foldl fun _ _ => counts_updTile

theorem counts_completeMove {r : Nat} {d : Dev} : SameCounts d (completeMove r d) := by
  unfold completeMove
  split
  · exact .refl d
  · have hl : SameCounts d ((otherHolders d r).foldl (fun d q => leaveRegion q d) d) := .foldl (fun _ _ => counts_leaveRegion)
    dsimp only
    generalize (otherHolders d r).foldl _ d = d' at hl ⊢
    have hm : SameCounts d' ((regionTiles d'.fuse r).foldl (fun d p => updTile d p fun T => { T with moving := false }) d') :=
      .foldl fun _ _ => counts_updTile
    exact counts_writeRoutes.after (counts_updRegion.after (hm.after hl))

theorem counts_injectRefresh {l : List Nat} {d : Dev} : SameCounts d (injectRefresh l d) := by
  unfold injectRefresh
  refine SameCounts.foldl (fun d x => ?_)
  dsimp only
  split <;> simp [SameCounts]

theorem counts_reloadCkpt {n : Nat} {d : Dev} : SameCounts d (reloadCkpt n d) := by
  unfold reloadCkpt
  split <;> exact ⟨rfl, rfl⟩

theorem counts_rejoinAll {n : Nat} {d : Dev} : SameCounts d (rejoinAll n d) := by
  unfold rejoinAll
  split
  · exact .refl d
  · have hs : SameCounts d ((rejoining d).foldl (fun d r => updRegion (completeMove r d) r fun R =>
        { R with st := .active, rejoin := false, since := n }) d) :=
      .foldl (fun _ _ => counts_updRegion.after counts_completeMove)
    dsimp only
    generalize (rejoining d).foldl _ d = d' at hs ⊢
    have hp : SameCounts d' { (if d'.run.st = .loaded then d' else pinsRejoin d') with run := { d'.run with fullNext := true } } := by
      split <;> exact ⟨rfl, rfl⟩
    exact counts_injectRefresh.after (counts_reloadCkpt.after (counts_deliverSample.after (hp.after hs)))

/-! ## The barrier -/

theorem counts_collect {n : Nat} {d : Dev} : SameCounts d (collect n d) := by
  refine SameCounts.after (d' := recordHalts d) ?_ counts_recordHalts
  unfold collect
  generalize recordHalts d = d
  exact ⟨rfl, rfl⟩

theorem counts_commitBp {p c b n : Nat} {d : Dev} : SameCounts d (commitBp p c b n d) := by
  unfold commitBp
  dsimp only
  split
  · exact .refl d
  · split <;> simp [SameCounts]

theorem counts_commitAll {n : Nat} {d : Dev} : SameCounts d (commitAll n d) := by
  unfold commitAll
  dsimp only
  refine SameCounts.foldl (fun d x => ?_)
  have hc : SameCounts d ((List.range 16).foldl (fun d c =>
      updCluster ((commitBps (tileOf d x.1) c).foldl (fun d b => commitBp x.1 c b n d) d) x.1 c fun C =>
        { C with step := 0, begun := false, done := false, fetched := false, fireHeld := false, window := 0 }) d) :=
    .foldl (fun _ _ => counts_updCluster.after (.foldl fun _ _ => counts_commitBp))
  split
  · exact SameCounts.after counts_updTile hc
  · exact hc

theorem eccs_exchBarrier {d : Dev} : eccs (exchBarrier d).tiles = eccs d.tiles := by
  funext p
  unfold eccs exchBarrier
  dsimp only
  refine tget_foldl_tupd_view (view := Tile.eccCorrected) (key := Prod.fst) fun T => ?_
  rfl

theorem counts_takePace {d : Dev} : SameCounts d (takePace d) := by
  unfold takePace
  dsimp only
  split <;> exact ⟨rfl, rfl⟩

theorem counts_resume {d : Dev} : SameCounts d (resume d) := by
  unfold resume
  split
  · exact .refl d
  · refine counts_beginCycle.after ?_
    split <;> exact ⟨rfl, rfl⟩

theorem counts_nextCycle {n : Nat} {short : Bool} {d : Dev} : SameCounts d (nextCycle n short d) := by
  unfold nextCycle stopHere
  dsimp only
  split <;> simp [SameCounts, counts_resume, counts_rejoinAll]

theorem counts_outputs {d : Dev} : SameCounts d (applyDrive (outputPins d)) := ⟨rfl, rfl⟩

theorem eccs_afterCommit {env : PinEnv} {n : Nat} {d : Dev} : eccs (afterCommit env n d).2.tiles = eccs d.tiles := by
  unfold afterCommit
  dsimp only
  split <;> simp [counts_isolateNamed, counts_tearPending, counts_takePace, counts_trailSpace, counts_raiseRing, counts_outputs,
    eccs_exchBarrier, counts_sampleFor]

theorem counts_beforeCommit {n : Nat} {d : Dev} : SameCounts d (beforeCommit n d) := by
  unfold beforeCommit
  exact counts_countRecords.after (counts_asmRecords.after (counts_captureBarrier.after counts_collect))

/-- The end of a design cycle counts no corrected word. -/
theorem eccs_endCycle {env : PinEnv} {n : Nat} {d : Dev} : eccs (endCycle env n d).tiles = eccs d.tiles := by
  rw [endCycle_eq]
  exact counts_nextCycle.1.trans (eccs_afterCommit.trans (counts_commitAll.after counts_beforeCommit).1)

/-! ## The cluster step -/

theorem counts_noteRewrite {p key line part : Nat} {d : Dev} : SameCounts d (noteRewrite p key line part d) := by
  unfold noteRewrite
  dsimp only
  split <;> exact ⟨rfl, rfl⟩

theorem counts_sendToken {p c port step : Nat} {v : Bool} {d : Dev} : SameCounts d (sendToken p c port step v d) := by
  unfold sendToken
  dsimp only
  split
  · refine SameCounts.after (.foldl (fun _ _ => counts_linkToken)) (SameCounts.after (.foldl (fun d x => ?_)) counts_updTile)
    split
    · exact counts_takeToken
    · exact counts_meshPut
  · exact counts_meshPut.after counts_updTile
  · exact counts_meshPut.after counts_updTile
  · exact counts_updTile

@[simp] theorem counts_emitMark {p c h : Nat} {d : Dev} : SameCounts d (emitMark p c h d) := by
  unfold emitMark
  dsimp only
  exact SameCounts.after (.foldl fun _ _ => counts_raiseLink.after counts_updLink) (SameCounts.after (.foldl fun _ _ => counts_meshMark)
    (SameCounts.after (.foldl fun _ _ => counts_meshMark) counts_updTile))

@[simp] theorem counts_beginMark {p c : Nat} {d : Dev} : SameCounts d (beginMark p c d) := by
  unfold beginMark
  repeat' split
  all_goals simp [SameCounts]

@[simp] theorem counts_stepMark {p c s : Nat} {d : Dev} : SameCounts d (stepMark p c s d) := by
  unfold stepMark
  dsimp only
  split <;> simp [SameCounts]

theorem counts_performStep {p c : Nat} {ws : StepWords} {d : Dev} : SameCounts d (performStep p c ws d) := by
  have ht (s : Nat) (l : List (Nat × Bool)) (d' : Dev) : SameCounts d' (l.foldl (fun d (port, v) => sendToken p c port s v d) d') :=
    .foldl fun _ _ => counts_sendToken
  unfold performStep
  dsimp only
  refine counts_stepMark.after ?_
  repeat' split
  all_goals simp [SameCounts, ht]

theorem counts_holdStep {p c : Nat} {why : Nat × Nat × Nat} {d : Dev} : SameCounts d (holdStep p c why d) := by
  have hn : SameCounts d (noteWait d) := by
    unfold noteWait
    split <;> exact ⟨rfl, rfl⟩
  unfold holdStep
  dsimp only
  split
  · exact hn
  · exact SameCounts.after counts_updTile hn

end Sys2Proof.Machine
end

section
/-! PROOFS. A fetch and its effect (R47, R48, R54, O56): corrections count once, and an uncorrectable word tears its region and breaks the
design cycle off. -/

namespace Sys2Proof.Machine

/-! ## Corrections at a cluster step -/

/-- The word of BP `b` is corrected on fetch. -/
def fixedWord (T : Tile) (c s b : Nat) : Bool := (usedStep (instrLine T c b s)).any (·.2)

theorem fixedBps_eq {T : Tile} {c s : Nat} : fixedBps T c s = (List.range 64).filter (fixedWord T c s) := by
  unfold fixedBps
  congr 1
  funext b
  unfold fixedWord
  cases usedStep (instrLine T c b s) <;> rfl

/-- The words of a step carry the mark of correction just where their fetch corrects them. -/
theorem length_marks_of_fetchStep {T : Tile} {c s n : Nat} {ws : List (Nat × StepW × Bool)} (h : fetchStep T c s n = .ok ws) :
    (ws.filter (·.2.2)).length = ((List.range n).filter (fixedWord T c s)).length := by
  induction n generalizing ws with
  | zero =>
    cases h
    rfl
  | succ n ih =>
    unfold fetchStep at h
    split at h
    · cases h
    next l hl =>
      split at h
      next w fix hu =>
        cases h
        have hf : fixedWord T c s n = fix := by rw [fixedWord, hu, Option.any_some]
        rw [List.range_succ, List.filter_append, List.filter_append, List.length_append, List.length_append, ih hl]
        cases fix <;> simp [hf]
      · cases h

theorem tiles_noteRewrite {p key line part : Nat} {d : Dev} : (noteRewrite p key line part d).tiles = d.tiles := by
  unfold noteRewrite
  dsimp only
  split <;> rfl

/-- Notes of rewrites for Mordant leave the tiles. -/
theorem foldl_noteRewrite_tiles {κ : Type} {p key : Nat} {line part : κ → Nat} {l : List κ} {d : Dev} :
    (l.foldl (fun d x => noteRewrite p key (line x) (part x) d) d).tiles = d.tiles :=
  foldl_part (part := Dev.tiles) (fun _ _ => tiles_noteRewrite) l d

theorem keeps_countFixes {p c : Nat} {d : Dev} : Keeps d (countFixes p c d) := by
  unfold countFixes
  dsimp only
  split
  · exact .refl d
  · exact Keeps.after (.foldl (fun _ _ => keeps_noteRewrite) _ _) keeps_updTile

theorem tiles_countFixes {p c : Nat} {d : Dev} (h : (clusterOf (tileOf d p) c).fetched = false) :
    (countFixes p c d).tiles = (updTile d p fun T =>
      { T with eccCorrected := T.eccCorrected + w64 (fixedBps (tileOf d p) c (clusterOf (tileOf d p) c).step).length }).tiles := by
  unfold countFixes
  dsimp only
  rw [h, if_neg Bool.false_ne_true]
  exact foldl_noteRewrite_tiles

theorem eccs_countFixes {p c : Nat} {d : Dev} (h : (clusterOf (tileOf d p) c).fetched = false) :
    eccs (countFixes p c d).tiles p
      = eccs d.tiles p + w64 (fixedBps (tileOf d p) c (clusterOf (tileOf d p) c).step).length := by
  rw [tiles_countFixes h]
  exact congrArg Tile.eccCorrected (tileOf_updTile.trans (if_pos rfl))

theorem committed_countFixes {p c : Nat} {d : Dev} : (countFixes p c d).run.committed = d.run.committed := by
  unfold countFixes
  dsimp only
  split
  · rfl
  · exact foldl_part (part := fun d => d.run.committed) (fun _ _ => counts_noteRewrite.2) _ _

/-- A ready step counts its corrections, and nothing else there counts any. -/
theorem eccs_readyStep {p c : Nat} {d : Dev} : eccs (readyStep p c d).tiles = eccs (countFixes p c d).tiles := by
  unfold readyStep
  dsimp only
  split <;> simp

theorem committed_readyStep {p c : Nat} {d : Dev} : (readyStep p c d).run.committed = d.run.committed := by
  unfold readyStep
  dsimp only
  split <;> simp [committed_countFixes]

/-- A cluster whose step is attempted. -/
structure Attempts (p c : Nat) (d : Dev) : Prop where
  cycle : cycleOpen d = true
  active : tileActive d p = true
  done : (clusterOf (tileOf d p) c).done = false
  ecc : (clusterOf (tileOf d p) c).ecc = none

theorem sameCounts_clusterStep_of_ok {p c : Nat} {d : Dev} {ws : List (Nat × StepW × Bool)} (ha : Attempts p c d)
    (h : fetchStep (tileOf d p) c (clusterOf (tileOf d p) c).step 64 = .ok ws) :
    SameCounts (readyStep p c d) (clusterStep p c d) := by
  obtain ⟨ho, ht, hd, he⟩ := ha
  unfold clusterStep
  simp only [ho, ht, hd, he, h, Bool.not_true, Bool.or_self, Option.isSome_none, Bool.false_eq_true, if_false]
  split
  · exact counts_performStep
  · exact counts_holdStep

theorem clusterStep_eq_eccFatal {p c b : Nat} {d : Dev} (ha : Attempts p c d)
    (h : fetchStep (tileOf d p) c (clusterOf (tileOf d p) c).step 64 = .error b) :
    clusterStep p c d = eccFatal p c b 0 (countFixes p c d) := by
  obtain ⟨ho, ht, hd, he⟩ := ha
  unfold clusterStep
  simp only [ho, ht, hd, he, h, Bool.not_true, Bool.or_self, Option.isSome_none, Bool.false_eq_true, if_false]

/-- The corrections of a fetched step count once, and the committed cycle stands. -/
theorem eccCorrected_clusterStep_of_ok {p c : Nat} {d : Dev} {ws : List (Nat × StepW × Bool)} (ha : Attempts p c d)
    (hf : (clusterOf (tileOf d p) c).fetched = false)
    (h : fetchStep (tileOf d p) c (clusterOf (tileOf d p) c).step 64 = .ok ws) :
    (tileOf (clusterStep p c d) p).eccCorrected = (tileOf d p).eccCorrected + w64 (ws.filter (·.2.2)).length ∧
      (clusterStep p c d).run.committed = d.run.committed := by
  obtain ⟨he, hc⟩ := sameCounts_clusterStep_of_ok ha h
  refine ⟨?_, hc.trans committed_readyStep⟩
  rw [length_marks_of_fetchStep h, ← fixedBps_eq]
  exact (congrFun (he.trans eccs_readyStep) p).trans (eccs_countFixes hf)

/-! ## A design cycle broken off -/

theorem tget_map {α : Type} {d : α} {f : α → α} (hf : f d = d) {t : Tbl α} {i : Nat} :
    tget d (t.map fun (k, x) => (k, f x)) i = f (tget d t i) := by
  induction t with
  | nil => exact hf.symm
  | cons a r ih =>
    obtain ⟨k, v⟩ := a
    simp only [List.map_cons, tget, ih]
    split <;> rfl

/-- An entry that is not the default stands in a table without defaults. -/
theorem tget_filter {α : Type} [DecidableEq α] {d : α} {t : Tbl α} {i : Nat} (h : tget d t i ≠ d) :
    tget d (t.filter fun (_, x) => x ≠ d) i = tget d t i := by
  induction t with
  | nil => rfl
  | cons a r ih =>
    obtain ⟨k, v⟩ := a
    unfold tget at h
    by_cases hk : i = k
    · rw [if_pos hk] at h
      simp [h, tget, hk]
    · rw [if_neg hk] at h
      rw [tget, if_neg hk, ← ih h]
      by_cases hv : v = d
      · simp [hv]
      · simp [hv, tget, hk]

/-- What the end of an abandoned design cycle leaves of a tile. -/
def abandonTile (T : Tile) : Tile :=
  { T with horizon := []
           clusters := (T.clusters.map fun (c, C) => (c, abandonCluster C)).filter fun (_, C) => C ≠ Cluster.reset }

theorem tileOf_abandonCycle {d : Dev} {p : Nat} : tileOf (abandonCycle d) p = abandonTile (tileOf d p) :=
  tget_map (f := abandonTile) rfl

/-- A cluster that an uncorrectable word holds keeps its step. -/
theorem clusterOf_abandonTile {T : Tile} {c : Nat} (h : (clusterOf T c).ecc ≠ none) :
    clusterOf (abandonTile T) c = abandonCluster (clusterOf T c) := by
  have hm : tget Cluster.reset (T.clusters.map fun (c, C) => (c, abandonCluster C)) c = abandonCluster (clusterOf T c) := tget_map rfl
  have hne : abandonCluster (clusterOf T c) ≠ Cluster.reset := fun e => h (congrArg Cluster.ecc e)
  exact (tget_filter (hm ▸ hne)).trans hm

section
variable {set : BitVec 16} {d : Dev}

theorem tiles_breakCycle : (breakCycle set d).tiles = (abandonCycle d).tiles := by
  unfold breakCycle
  simp

theorem regions_breakCycle : (breakCycle set d).regions = d.regions := by
  unfold breakCycle
  simp [abandonCycle]

/-- The module drains toward STOPPED with MID_CYCLE = 1, in the committed cycle it was in. -/
theorem run_breakCycle : (breakCycle set d).run.st = .stopping ∧ (breakCycle set d).run.draining = true ∧
    (breakCycle set d).run.midCycle = true ∧ (breakCycle set d).run.set = set ∧
    (breakCycle set d).run.committed = d.run.committed := by
  unfold breakCycle setCauses
  simp [abandonCycle]

end

/-! ## An uncorrectable word -/

theorem regionOf_updRegion {d : Dev} {r q : Nat} {f : Region → Region} :
    regionOf (updRegion d r f) q = if q = r then f (regionOf d r) else regionOf d q := tget_tset

section
variable {reason r q : Nat} {w : Option (W64 × W64)} {d : Dev}

theorem tiles_tearRegion : (tearRegion reason r w d).tiles = d.tiles := by
  unfold tearRegion leaveActive
  dsimp only
  split <;> rfl

theorem fuse_tearRegion : (tearRegion reason r w d).fuse = d.fuse := by
  unfold tearRegion leaveActive
  dsimp only
  split <;> rfl

/-- The region is TORN, with the reason where it had none; the others are as they were. -/
theorem regionOf_tearRegion : regionOf (tearRegion reason r w d) q = if q = r then
    { regionOf d r with
      st := .torn, held := if (regionOf d r).st = .active then d.run.committed else (regionOf d r).held
      tornReason := if (regionOf d r).st = .torn ∨ (regionOf d r).tornPend then (regionOf d r).tornReason else reason
      tornPend := false }
    else regionOf d q := by
  unfold tearRegion leaveActive
  dsimp only
  rw [regionOf_updRegion, regionOf_updRegion, regionOf_updRegion, if_pos rfl]
  split <;> split <;> rfl

end

section
variable {p c b det q k r : Nat} {d : Dev}

/-- A tile of which cluster `c` is held by an uncorrectable word. -/
def heldTile (c b det : Nat) (T : Tile) : Tile :=
  { T.updCluster c (fun C => { C with ecc := some (b, det) }) with eccFatal := true }

theorem clusterOf_heldTile {T : Tile} :
    clusterOf (heldTile c b det T) k = if k = c then { clusterOf T c with ecc := some (b, det) } else clusterOf T k :=
  clusterOf_updCluster (T := T) (f := fun C => { C with ecc := some (b, det) })

theorem fuse_eccMark : (eccMark p c b det d).fuse = d.fuse := fuse_tearRegion

theorem tileOf_eccMark : tileOf (eccMark p c b det d) q = if q = p then heldTile c b det (tileOf d p) else tileOf d q := by
  have ht : (eccMark p c b det d).tiles = (updTile d p (heldTile c b det)).tiles := tiles_tearRegion
  rw [tileOf, ht]
  exact tileOf_updTile

theorem clusterOf_eccMark : clusterOf (tileOf (eccMark p c b det d) q) k =
    if q = p ∧ k = c then { clusterOf (tileOf d p) c with ecc := some (b, det) } else clusterOf (tileOf d q) k := by
  rw [tileOf_eccMark]
  by_cases hq : q = p
  · simp only [hq, if_true, true_and, clusterOf_heldTile]
  · simp only [hq, if_false, false_and]

theorem eccFatal_eccMark : (tileOf (eccMark p c b det d) q).eccFatal = if q = p then true else (tileOf d q).eccFatal := by
  rw [tileOf_eccMark]
  split <;> rfl

theorem regionOf_eccMark : regionOf (eccMark p c b det d) r =
    regionOf (tearRegion 0x0252 (tileRegion d.fuse p) none (updTile d p (heldTile c b det))) r := rfl

theorem st_eccMark : (regionOf (eccMark p c b det d) r).st = if r = tileRegion d.fuse p then .torn else (regionOf d r).st := by
  rw [regionOf_eccMark, regionOf_tearRegion]
  split <;> rfl

/-- A region that is not TORN and does not wait to be takes the reason of an uncorrectable word. -/
theorem tornReason_eccMark (hs : (regionOf d (tileRegion d.fuse p)).st ≠ .torn)
    (hp : (regionOf d (tileRegion d.fuse p)).tornPend = false) :
    (regionOf (eccMark p c b det d) (tileRegion d.fuse p)).tornReason = 0x0252 := by
  have hn : ¬ ((regionOf d (tileRegion d.fuse p)).st = .torn ∨ (regionOf d (tileRegion d.fuse p)).tornPend = true) := by
    simp [hs, hp]
  rw [regionOf_eccMark, regionOf_tearRegion, if_pos rfl]
  exact if_neg hn

theorem counts_eccMark : SameCounts d (eccMark p c b det d) := by
  unfold eccMark
  exact counts_oweRefresh.after (counts_tearRegion.after counts_updTile)

/-- An uncorrectable word holds the cluster, its tile says so, and the region is TORN. -/
structure EccHeld (r p c b det : Nat) (d : Dev) : Prop where
  ecc : (clusterOf (tileOf d p) c).ecc = some (b, det)
  fatal : (tileOf d p).eccFatal = true
  torn : (regionOf d r).st = .torn

theorem eccHeld_eccMark : EccHeld (tileRegion d.fuse p) p c b det (eccMark p c b det d) where
  ecc := by rw [clusterOf_eccMark, if_pos ⟨rfl, rfl⟩]
  fatal := by rw [eccFatal_eccMark, if_pos rfl]
  torn := by rw [st_eccMark, if_pos rfl]

/-- A mark of another cluster leaves it so, and so does the same mark again. -/
theorem EccHeld.eccMark {p' c' b' det' : Nat} (h : EccHeld r p c b det d) (hk : p = p' → c = c' → (b', det') = (b, det)) :
    EccHeld r p c b det (eccMark p' c' b' det' d) where
  ecc := by
    rw [clusterOf_eccMark]
    split
    next e => exact congrArg some (hk e.1 e.2)
    · exact h.ecc
  fatal := by
    rw [eccFatal_eccMark, h.fatal, ite_self]
  torn := by
    rw [st_eccMark, h.torn, ite_self]

theorem clusterOf_breakCycle {set : BitVec 16} (h : (clusterOf (tileOf d p) c).ecc ≠ none) :
    clusterOf (tileOf (breakCycle set d) p) c = abandonCluster (clusterOf (tileOf d p) c) := by
  rw [tileOf, tiles_breakCycle]
  exact (congrArg (clusterOf · c) tileOf_abandonCycle).trans (clusterOf_abandonTile h)

theorem EccHeld.breakCycle {set : BitVec 16} (h : EccHeld r p c b det d) : EccHeld r p c b det (breakCycle set d) where
  ecc := by
    rw [clusterOf_breakCycle (by rw [h.ecc]; exact nofun)]
    exact h.ecc
  fatal := by
    rw [tileOf, tiles_breakCycle]
    exact (congrArg Tile.eccFatal tileOf_abandonCycle).trans h.fatal
  torn := by
    rw [regionOf, regions_breakCycle]
    exact h.torn

end

/-- The design cycle is broken off for a TORN region. -/
structure BrokenOff (n : Nat) (d : Dev) : Prop where
  st : d.run.st = .stopping
  draining : d.run.draining = true
  midCycle : d.run.midCycle = true
  cause : d.run.set.getLsbD cREGION_TORN = true
  committed : d.run.committed = n

theorem brokenOff_breakCycle {q : BitVec 16} {n : Nat} {d : Dev} (hn : d.run.committed = n) :
    BrokenOff n (breakCycle (setBit q cREGION_TORN true) d) := by
  obtain ⟨hst, hdr, hmid, hset, hcom⟩ := run_breakCycle (set := setBit q cREGION_TORN true) (d := d)
  refine ⟨hst, hdr, hmid, ?_, hcom.trans hn⟩
  rw [hset, getLsbD_setBit (by decide), if_pos rfl]

theorem tiles_recordHalts {d : Dev} : (recordHalts d).tiles = d.tiles := by
  unfold recordHalts
  split <;> rfl

theorem clusterOf_countFixes {p c q k : Nat} {d : Dev} : clusterOf (tileOf (countFixes p c d) q) k = clusterOf (tileOf d q) k := by
  by_cases h : (clusterOf (tileOf d p) c).fetched
  · unfold countFixes
    rw [if_pos h]
  · rw [tileOf, tiles_countFixes (Bool.eq_false_iff.mpr h)]
    refine (congrArg (clusterOf · k) tileOf_updTile).trans ?_
    split
    next e => rw [e]; rfl
    · rfl

/-- An uncorrectable word of a step holds its cluster at the step, and breaks the design cycle off. -/
theorem clusterStep_error {p c b : Nat} {d : Dev} (ha : Attempts p c d)
    (h : fetchStep (tileOf d p) c (clusterOf (tileOf d p) c).step 64 = .error b) :
    EccHeld (tileRegion d.fuse p) p c b 0 (clusterStep p c d) ∧ BrokenOff d.run.committed (clusterStep p c d) ∧
    (clusterOf (tileOf (clusterStep p c d) p) c).step = (clusterOf (tileOf d p) c).step ∧
    ((regionOf d (tileRegion d.fuse p)).st ≠ .torn → (regionOf d (tileRegion d.fuse p)).tornPend = false →
      (regionOf (clusterStep p c d) (tileRegion d.fuse p)).tornReason = 0x0252) := by
  have hk : Keeps d (recordHalts (countFixes p c d)) := keeps_recordHalts.after keeps_countFixes
  have hc : (recordHalts (countFixes p c d)).run.committed = d.run.committed := counts_recordHalts.2.trans committed_countFixes
  have hC : clusterOf (tileOf (recordHalts (countFixes p c d)) p) c = clusterOf (tileOf d p) c := by
    rw [tileOf, tiles_recordHalts]
    exact clusterOf_countFixes
  have hr (r : Nat) : regionOf (recordHalts (countFixes p c d)) r = regionOf d r := by rw [regionOf, hk.regions, regionOf]
  rw [clusterStep_eq_eccFatal ha h, eccFatal]
  generalize recordHalts (countFixes p c d) = d₁ at hk hc hC hr
  have hm : EccHeld (tileRegion d₁.fuse p) p c b 0 (eccMark p c b 0 d₁) := eccHeld_eccMark
  refine ⟨hk.fuse ▸ hm.breakCycle, brokenOff_breakCycle (counts_eccMark.2.trans hc), ?_, fun hs hp => ?_⟩
  · rw [clusterOf_breakCycle (by rw [hm.ecc]; exact nofun), ← hC, clusterOf_eccMark, if_pos ⟨rfl, rfl⟩]
    rfl
  · rw [regionOf, regions_breakCycle, ← hk.fuse]
    rw [← hk.fuse, ← hr] at hs hp
    exact tornReason_eccMark hs hp

/-! ## Corrections at the barrier -/

theorem w64_add {a b : Nat} : w64 (a + b) = w64 a + w64 b := BitVec.ofNat_add ..

/-- The corrected entries of one cluster are counted and noted. -/
def countCluster (p : Nat) (T : Tile) (d : Dev) (c : Nat) : Dev :=
  let l := fixedCommits T c d.image.l
  if l.isEmpty then d
  else l.foldl (fun d (i, j) => noteRewrite p (storeKey kCOMMIT c) i j d)
    (updTile d p fun T => { T with eccCorrected := T.eccCorrected + w64 l.length })

theorem countCommitFixes_eq {d : Dev} :
    countCommitFixes d = (activeTiles d).foldl (fun d x => (List.range 16).foldl (countCluster x.1 x.2) d) d := rfl

/-- The entries of a tile that are corrected on fetch. -/
def fixedCount (T : Tile) (L : Nat) (cs : List Nat) : Nat := (cs.map fun c => (fixedCommits T c L).length).sum

theorem image_countCluster {p c : Nat} {T : Tile} {d : Dev} : (countCluster p T d c).image = d.image := by
  unfold countCluster
  dsimp only
  split
  · rfl
  · exact (Keeps.foldl (fun _ _ => keeps_noteRewrite) _ _).image

theorem committed_countCluster {p c : Nat} {T : Tile} {d : Dev} : (countCluster p T d c).run.committed = d.run.committed := by
  unfold countCluster
  dsimp only
  split
  · rfl
  · exact foldl_part (part := fun d => d.run.committed) (fun _ _ => counts_noteRewrite.2) _ _

theorem committed_countCommitFixes {d : Dev} : (countCommitFixes d).run.committed = d.run.committed := by
  rw [countCommitFixes_eq]
  refine foldl_part (part := fun d => d.run.committed) (fun d x => ?_) _ _
  exact foldl_part (part := fun d => d.run.committed) (fun _ _ => committed_countCluster) _ _

theorem eccs_countCluster {p c q : Nat} {T : Tile} {d : Dev} : eccs (countCluster p T d c).tiles q =
    if q = p then eccs d.tiles p + w64 (fixedCommits T c d.image.l).length else eccs d.tiles q := by
  unfold countCluster
  dsimp only
  split
  next he =>
    have he := List.isEmpty_iff.mp he
    rw [he]
    split
    next e => rw [e]; exact (BitVec.add_zero _).symm
    · rfl
  · rw [foldl_noteRewrite_tiles (line := Prod.fst) (part := Prod.snd)]
    refine (congrArg Tile.eccCorrected tileOf_updTile).trans ?_
    split <;> rfl

/-- The corrected entries of a tile's clusters. -/
theorem eccs_foldl_countCluster {p q : Nat} {T : Tile} {cs : List Nat} {d : Dev} :
    eccs (cs.foldl (countCluster p T) d).tiles q =
      if q = p then eccs d.tiles p + w64 (fixedCount T d.image.l cs) else eccs d.tiles q := by
  induction cs generalizing d with
  | nil =>
    split
    next e => rw [e]; exact (BitVec.add_zero _).symm
    · rfl
  | cons c r ih =>
    rw [List.foldl_cons, ih, eccs_countCluster, eccs_countCluster, image_countCluster, if_pos rfl, BitVec.add_assoc, ← w64_add]
    split <;> rfl

theorem eccs_foldl_tiles {q : Nat} {l : List (Nat × Tile)} {d : Dev} (hn : (l.map (·.1)).Nodup) :
    (∀ T, (q, T) ∈ l → eccs (l.foldl (fun d x => (List.range 16).foldl (countCluster x.1 x.2) d) d).tiles q
      = eccs d.tiles q + w64 (fixedCount T d.image.l (List.range 16))) ∧
    (q ∉ l.map (·.1) → eccs (l.foldl (fun d x => (List.range 16).foldl (countCluster x.1 x.2) d) d).tiles q = eccs d.tiles q) := by
  induction l generalizing d with
  | nil => exact ⟨nofun, fun _ => rfl⟩
  | cons a r ih =>
    obtain ⟨p, T'⟩ := a
    rw [List.map_cons, List.nodup_cons] at hn
    have hi : ((List.range 16).foldl (countCluster p T') d).image = d.image :=
      foldl_part (part := Dev.image) (fun _ _ => image_countCluster) _ _
    obtain ⟨hin, hout⟩ := ih (d := (List.range 16).foldl (countCluster p T') d) hn.2
    rw [eccs_foldl_countCluster, hi] at hin
    rw [eccs_foldl_countCluster] at hout
    refine ⟨fun T h => ?_, fun h => ?_⟩
    · rcases List.mem_cons.mp h with h | h
      · cases h
        exact (hout hn.1).trans (if_pos rfl)
      · have hq : q ≠ p := fun e => hn.1 (e ▸ List.mem_map_of_mem (f := (·.1)) h)
        exact (hin T h).trans (by rw [if_neg hq])
    · rw [List.map_cons, List.mem_cons, not_or] at h
      exact (hout h.2).trans (if_neg h.1)

theorem nodup_activeTiles {d : Dev} : ((activeTiles d).map (·.1)).Nodup := by
  simp only [activeTiles, List.map_map, Function.comp_def, List.map_id']
  exact List.nodup_range.filter _

theorem mem_activeTiles {d : Dev} {p : Nat} (hp : p < 528) (ha : tileActive d p = true) : (p, tileOf d p) ∈ activeTiles d :=
  List.mem_map.mpr ⟨p, List.mem_filter.mpr ⟨List.mem_range.mpr hp, ha⟩, rfl⟩

theorem eccs_countCommitFixes {d : Dev} {p : Nat} (hp : p < 528) (ha : tileActive d p = true) :
    eccs (countCommitFixes d).tiles p = eccs d.tiles p + w64 (fixedCount (tileOf d p) d.image.l (List.range 16)) := by
  rw [countCommitFixes_eq]
  exact (eccs_foldl_tiles nodup_activeTiles).1 _ (mem_activeTiles hp ha)

/-! ## Uncorrectable entries at the barrier -/

theorem stores_of_keeps {d d' : Dev} (h : Keeps d d') {p : Nat} : (tileOf d' p).stores = (tileOf d p).stores :=
  (h.keepsAt (c := 0) (b := 0)).stores

theorem badCommits_of_keeps {d d' : Dev} (h : Keeps d d') : badCommits d' = badCommits d := by
  have hT (p c : Nat) : badCommit (tileOf d' p) c d'.image.l = badCommit (tileOf d p) c d.image.l := by
    simp only [badCommit, storeOf, stores_of_keeps h, h.image]
  unfold badCommits activeTiles
  simp only [List.flatMap_map, hT, h.tileActive]

theorem fixedCount_of_keeps {d d' : Dev} (h : Keeps d d') {p : Nat} {cs : List Nat} :
    fixedCount (tileOf d' p) d'.image.l cs = fixedCount (tileOf d p) d.image.l cs := by
  simp only [fixedCount, fixedCommits, storeOf, stores_of_keeps h, h.image]

theorem badCommit_of_mem {d : Dev} {x : Nat × Nat × Nat × Nat} (h : x ∈ badCommits d) :
    badCommit (tileOf d x.1) x.2.1 d.image.l = some x.2.2 := by
  unfold badCommits activeTiles at h
  simp only [List.flatMap_map, List.mem_flatMap, List.mem_filterMap, Option.map_eq_some_iff, Prod.exists] at h
  obtain ⟨p, -, c, -, b, k, hb, rfl⟩ := h
  exact hb

/-- Every uncorrectable entry of a list is marked. -/
def markAll (l : List (Nat × Nat × Nat × Nat)) (d : Dev) : Dev :=
  l.foldl (fun d x => eccMark x.1 x.2.1 x.2.2.1 (0x800 + x.2.2.2) d) d

theorem counts_markAll {l : List (Nat × Nat × Nat × Nat)} {d : Dev} : SameCounts d (markAll l d) :=
  .foldl fun _ _ => counts_eccMark

theorem EccHeld.markAll {l : List (Nat × Nat × Nat × Nat)} {d : Dev} {r : Nat} {x : Nat × Nat × Nat × Nat}
    (hl : ∀ y ∈ l, x.1 = y.1 → x.2.1 = y.2.1 → y.2.2 = x.2.2) (h : EccHeld r x.1 x.2.1 x.2.2.1 (0x800 + x.2.2.2) d) :
    EccHeld r x.1 x.2.1 x.2.2.1 (0x800 + x.2.2.2) (markAll l d) := by
  induction l generalizing d with
  | nil => exact h
  | cons y l ih =>
    refine ih (fun z hz => hl z (List.mem_cons_of_mem _ hz)) (h.eccMark fun hp hc => ?_)
    exact congrArg (fun z : Nat × Nat => (z.1, 0x800 + z.2)) (hl y (List.mem_cons_self ..) hp hc)

/-- One mark for each cluster: all of them stand at the end. -/
theorem eccHeld_markAll {l : List (Nat × Nat × Nat × Nat)} {d : Dev} {x : Nat × Nat × Nat × Nat} (hx : x ∈ l)
    (hl : ∀ y ∈ l, x.1 = y.1 → x.2.1 = y.2.1 → y.2.2 = x.2.2) :
    EccHeld (tileRegion d.fuse x.1) x.1 x.2.1 x.2.2.1 (0x800 + x.2.2.2) (markAll l d) := by
  induction l generalizing d with
  | nil => cases hx
  | cons y l ih =>
    have hl' : ∀ y ∈ l, x.1 = y.1 → x.2.1 = y.2.1 → y.2.2 = x.2.2 := fun z hz => hl z (List.mem_cons_of_mem _ hz)
    rcases List.mem_cons.mp hx with rfl | hx
    · exact EccHeld.markAll (l := l) hl' eccHeld_eccMark
    · have := ih (d := eccMark y.1 y.2.1 y.2.2.1 (0x800 + y.2.2.2) d) hx hl'
      rwa [fuse_eccMark] at this

/-- A barrier that is reached. -/
structure AtBarrier (d : Dev) : Prop where
  cycle : cycleOpen d = true
  clocks : d.clk.frozen = false
  done : allDone d = true
  markers : markersIn d = true
  replay : replayLeft (flushReplay (drainMesh d)) = false

/-- An uncorrectable entry breaks the design cycle off in place of the commit. -/
theorem barrier_eq_breakCycle {env : PinEnv} {d : Dev} (h : AtBarrier d)
    (hb : badCommits (countCommitFixes (flushReplay (drainMesh d))) ≠ []) :
    let d₁ := countCommitFixes (flushReplay (drainMesh d))
    let d₂ := markAll (badCommits d₁) (recordHalts d₁)
    barrier env d = breakCycle (setBit d₂.run.reqs cREGION_TORN true) d₂ := by
  obtain ⟨ho, hf, hd, hm, hl⟩ := h
  unfold barrier
  rw [if_pos (by simp only [ho, hf, hd, hm]; rfl)]
  dsimp only
  rw [if_neg (by simp only [hl]; exact Bool.false_ne_true)]
  generalize countCommitFixes (flushReplay (drainMesh d)) = d₁ at hb ⊢
  split
  next e => exact absurd e hb
  · rw [markAll]

theorem keeps_toFetch {d : Dev} : Keeps d (flushReplay (drainMesh d)) := keeps_flushReplay.after keeps_drainMesh
theorem counts_toFetch {d : Dev} : SameCounts d (flushReplay (drainMesh d)) := counts_flushReplay.after counts_drainMesh

/-- The corrections of the entries of an ACTIVE tile count once at a barrier that ends its design cycle. -/
theorem eccCorrected_barrier {env : PinEnv} {d : Dev} (h : AtBarrier d) (hb : badCommits (flushReplay (drainMesh d)) = []) {p : Nat}
    (hp : p < 528) (ha : tileActive d p = true) :
    (tileOf (barrier env d) p).eccCorrected = (tileOf d p).eccCorrected
      + w64 ((List.range 16).map fun c => (fixedCommits (tileOf d p) c d.image.l).length).sum := by
  obtain ⟨ho, hf, hd, hm, hl⟩ := h
  rw [barrier_eq_endCycle ho hf hd hm hl ((badCommits_of_keeps keeps_countCommitFixes).trans hb)]
  refine (congrFun eccs_endCycle p).trans ?_
  rw [eccs_countCommitFixes hp (keeps_toFetch.tileActive.trans ha), counts_toFetch.1, fixedCount_of_keeps keeps_toFetch]
  rfl

/-- Uncorrectable entries at a barrier hold their clusters, and break the design cycle off. -/
theorem barrier_breaks {env : PinEnv} {d : Dev} (h : AtBarrier d) (hb : badCommits (flushReplay (drainMesh d)) ≠ []) :
    (∀ x ∈ badCommits (flushReplay (drainMesh d)),
      EccHeld (tileRegion d.fuse x.1) x.1 x.2.1 x.2.2.1 (0x800 + x.2.2.2) (barrier env d)) ∧
    BrokenOff d.run.committed (barrier env d) := by
  have hl : badCommits (countCommitFixes (flushReplay (drainMesh d))) = badCommits (flushReplay (drainMesh d)) :=
    badCommits_of_keeps keeps_countCommitFixes
  rw [barrier_eq_breakCycle h (by rw [hl]; exact hb), hl]
  refine ⟨fun x hx => ?_, brokenOff_breakCycle ?_⟩
  · have hfuse : (recordHalts (countCommitFixes (flushReplay (drainMesh d)))).fuse = d.fuse :=
      (keeps_recordHalts.after (keeps_countCommitFixes.after keeps_toFetch)).fuse
    rw [← hfuse]
    refine (eccHeld_markAll hx fun y hy hp hc => ?_).breakCycle
    have := badCommit_of_mem hy
    rw [← hp, ← hc, badCommit_of_mem hx] at this
    exact (Option.some.inj this).symm
  · exact counts_markAll.2.trans (counts_recordHalts.2.trans (committed_countCommitFixes.trans counts_toFetch.2))

/-- Settles O56: what a fetch makes of a word, and its effect at a cluster step and at the barrier. -/
theorem fetchCorrects : Obligations.FetchCorrects := by
  unfold Obligations.FetchCorrects
  intro codes
  have hcodes : codes = (List.range 80).map colCode := rfl
  have htake : codes.take 24 = (List.range 24).map colCode := rfl
  refine ⟨fun w => ?_, fun w => ?_, fun p => stepFetch_stepEncode, fun p => commitFetch_commitEncode, ?_, ?_, ?_⟩
  · refine stepFetch_table hcodes ?_
    rw [hcodes]
    exact congrArg _ foldl_codes_eq_chkLow
  · refine commitFetch_table hcodes ?_
    rw [htake]
    exact congrArg _ foldl_codes_eq_chkLow
  · intro s p c ws C ho ha hd he hf h
    exact Ends.of_lift (f := clusterStep p c) rfl fun ev => eccCorrected_clusterStep_of_ok ⟨ho, ha, hd, he⟩ hf h
  · intro s p c b C ho ha hd he h
    obtain ⟨hheld, hbroken, hstep, hreason⟩ := clusterStep_error ⟨ho, ha, hd, he⟩ h
    exact Ends.of_lift (f := clusterStep p c) rfl fun ev => ⟨hheld.ecc, hstep, hheld.fatal, hheld.torn, hreason,
      hbroken.st, hbroken.draining, hbroken.midCycle, hbroken.cause, hbroken.committed⟩
  · intro s env ho hf hd hm d hl
    have h : AtBarrier s.dev := ⟨ho, hf, hd, hm, hl⟩
    refine ⟨fun hb p ha => ?_, fun hb => ?_⟩
    · have hc := eccCorrected_barrier (env := env) h hb p.isLt ha
      exact Ends.of_lift (f := barrier env) rfl fun ev => hc
    obtain ⟨hheld, hbroken⟩ := barrier_breaks (env := env) h hb
    exact Ends.of_lift (f := barrier env) rfl fun ev => ⟨fun x hx => ⟨(hheld x hx).ecc, (hheld x hx).fatal, (hheld x hx).torn⟩,
      hbroken.st, hbroken.draining, hbroken.midCycle, hbroken.cause, hbroken.committed⟩

end Sys2Proof.Machine
end
